-- ==== Sys2Proof/Word.lean ====
section
/-! DEFINITION. The fixed-width words of the block: bytes, 16-bit data, 14-bit mirror entries and 24-bit frames
(00_scope.md R8, R10). Nothing here computes. -/

namespace Sys2Proof

/-- One byte on the serial interface (00_scope.md R10). -/
abbrev Byte := BitVec 8

/-- A u16: a frame's data field, a read-back selector, a converter code, a span offset (00_scope.md R8). -/
abbrev Word := BitVec 16

/-- A u14: one entry of the mirror's input banks and trims (00_scope.md R8, INPUT_BITS and TRIM_BITS). -/
abbrev U14 := BitVec 14

/-- A frame as one u24; byte 0 is bits 23:16 (00_scope.md R10). -/
abbrev Frame := BitVec 24

/-- An IEEE binary64 number as its 64 bits: set_voltage's operand (42_control_fsm.md R190). -/
abbrev Binary64 := BitVec 64

/-- Group: an integer 0 to 4 (00_scope.md R12). -/
abbrev GroupNo := Fin 5

/-- Chan: an integer 0 to 7 (00_scope.md R12). -/
abbrev ChanNo := Fin 8

end Sys2Proof
end

