-- ==== Sys2Proof/Syntax.lean ====
section
/-! DEFINITION. The value types of 00_scope.md R11 and R12; `Instr`, one constructor per row of spec/opcode_table.json;
the host operations of 42_control_fsm.md R180; the primitive actions and the oracle's answers. -/

namespace Sys2Proof

/-! ## Addresses -/

/-- The mode field's four values (30_encoding.md R81). -/
inductive Mode where
  | data | offset | gain | special
  deriving DecidableEq, Repr

/-- A set of channels as a host names it (00_scope.md R12). Group and channel are numbers of any size here: a host
operation checks their range first (42_control_fsm.md R181). -/
inductive ChannelAddress where
  | allCh
  | singleGroup (group : Nat)
  | singleCh (group ch : Nat)
  | chx (ch : Nat)
  | chxExceptGroup0 (ch : Nat)
  deriving DecidableEq, Repr

/-- The six special functions (20_memory.md R52). A group outside 0 to 4 is outside this type (40_frame_codec.md R146). -/
inductive SpecialFunctionAddress where
  | control | ofs0 | ofs1 | readBack
  | select (group : GroupNo)
  | selectAll
  deriving DecidableEq, Repr

/-- The 168 registers that can be read back (20_memory.md R53). -/
inductive ReadBackAddr where
  | x1a (group : GroupNo) (ch : ChanNo)
  | x1b (group : GroupNo) (ch : ChanNo)
  | c (group : GroupNo) (ch : ChanNo)
  | m (group : GroupNo) (ch : ChanNo)
  | control | ofs0 | ofs1
  | select (group : GroupNo)
  deriving DecidableEq, Repr

/-! ## Instructions: the frame kinds -/

/-- One constructor per row of spec/opcode_table.json (30_encoding.md R104): 15 write frames, 6 special frames and the 8
read-back requests. The `rd` forms are pseudo-instructions of `sfReadback` (30_encoding.md R103): `Instr.canonical` of
Decode.lean says which words they share. -/
inductive Instr where
  | wrDataAll (data : Word)
  | wrDataGrp (group : Nat) (data : Word)
  | wrDataCh (group ch : Nat) (data : Word)
  | wrDataChx (ch : Nat) (data : Word)
  | wrDataChxng0 (ch : Nat) (data : Word)
  | wrOffsetAll (data : Word)
  | wrOffsetGrp (group : Nat) (data : Word)
  | wrOffsetCh (group ch : Nat) (data : Word)
  | wrOffsetChx (ch : Nat) (data : Word)
  | wrOffsetChxng0 (ch : Nat) (data : Word)
  | wrGainAll (data : Word)
  | wrGainGrp (group : Nat) (data : Word)
  | wrGainCh (group ch : Nat) (data : Word)
  | wrGainChx (ch : Nat) (data : Word)
  | wrGainChxng0 (ch : Nat) (data : Word)
  | sfControl (data : Word)
  | sfOfs0 (data : Word)
  | sfOfs1 (data : Word)
  | sfReadback (selector : Word)
  | sfSelect (group : GroupNo) (data : Word)
  | sfSelectAll (data : Word)
  | rdX1a (group : GroupNo) (ch : ChanNo)
  | rdX1b (group : GroupNo) (ch : ChanNo)
  | rdC (group : GroupNo) (ch : ChanNo)
  | rdM (group : GroupNo) (ch : ChanNo)
  | rdControl
  | rdOfs0
  | rdOfs1
  | rdSelect (group : GroupNo)
  deriving DecidableEq, Repr

/-! ## Lines and primitive actions -/

/-- The three output lines (10_state.md R34). -/
inductive Line where
  | reset | clr | ldac
  deriving DecidableEq, Repr

/-- What a line can be driven to (20_memory.md R62). -/
inductive Drive where
  | high | low
  deriving DecidableEq, Repr

/-- What the block knows of a line's level (00_scope.md R12). -/
inductive Level where
  | high | low | unknown
  deriving DecidableEq, Repr

/-- A primitive action (00_scope.md R11): what the block issues to the transport. Every BusRead's destination is 3 bytes
(20_memory.md R57). -/
inductive Action where
  | busWrite (frame : Frame)
  | busRead (request : Frame)
  | lineDrive (line : Line) (level : Drive)
  deriving DecidableEq, Repr

/-- The three bytes a successful BusRead yields (20_memory.md R61). -/
structure Response where
  b0 : Byte
  b1 : Byte
  b2 : Byte
  deriving DecidableEq, Repr, Inhabited

/-- The oracle's answer to one primitive action (20_memory.md R63). The bytes of `ok` mean something for a BusRead only;
for the other two actions they are not looked at. -/
inductive Answer where
  | ok (bytes : Response)
  | err
  deriving DecidableEq, Repr, Inhabited

/-! ## Host operations -/

/-- The thirteen host operations (42_control_fsm.md R180) with their operands. -/
inductive HostOp where
  | init
  | reset
  | clear
  | restoreClear
  | setCode (code : Word) (target : ChannelAddress)
  | setVoltage (voltage : Binary64) (target : ChannelAddress)
  | setGain (value : Word)
  | setOffset (value : Word)
  | setLdac
  | clearLdac
  | readAll
  | getReg
  | getVref
  deriving DecidableEq, Repr

/-- What the host contexts submit, in the order in which they take the bus lock (20_memory.md R66, R67): a host
operation; one frame built by hand (70_reset_and_hazards.md R273); or the Waveform Executor taking the lock at the start
of its run (20_memory.md R66). -/
inductive HostCall where
  | op (operation : HostOp)
  | frame (word : Frame)
  | startExecutor
  deriving DecidableEq, Repr

/-- What the Waveform Executor does while it holds the lock: it calls set_code, and it ends its run (00_scope.md R5). -/
inductive ExecutorCall where
  | setCode (code : Word) (target : ChannelAddress)
  | stop
  deriving DecidableEq, Repr

end Sys2Proof
end

