-- ==== Sys2Proof/Config.lean ====
section
/-! DEFINITION. The open parameters of 00_scope.md R9: those fixed when the block is created (`Params`), and the free
values of the model, constants without a body (the oracle's answers; how far a binary64 evaluation of the converter strays). -/

namespace Sys2Proof

/-- VREF's domain: a positive rational number of volts, `(numPred + 1) / (denPred + 1)` (00_scope.md R9). -/
structure Volts where
  numPred : Nat
  denPred : Nat
  deriving DecidableEq, Repr, Inhabited

/-- LDAC_INIT_SEQ's five values: `[]`, `[High]`, `[Low]`, `[Low, High]`, `[High, Low]` (00_scope.md R9). -/
inductive LdacInitSeq where
  | none | high | low | lowHigh | highLow
  deriving DecidableEq, Repr, Inhabited

/-- READBACK_SHIFT: 0 files a response under its own request, 1 under the request before (42_control_fsm.md R194). -/
inductive ReadbackShift where
  | zero | one
  deriving DecidableEq, Repr, Inhabited

/-- ROUND_TIES: half away from zero, or half to even (41_transfer_function.md R164). -/
inductive RoundTies where
  | away | even
  deriving DecidableEq, Repr, Inhabited

/-- VTC_ARITH: exact rationals, or an IEEE binary64 evaluation of unknown order (41_transfer_function.md R170). -/
inductive VtcArith where
  | exact | binary64
  deriving DecidableEq, Repr, Inhabited

/-- The open parameters that are plain data (00_scope.md R9). They are fixed when the block is created and never change
(10_state.md R20): State carries them in a field that no step writes, so that a claim about every state is a claim about
every value of them. -/
structure Params where
  vref : Volts
  ldacInitSeq : LdacInitSeq
  readbackShift : ReadbackShift
  roundTies : RoundTies
  vtcArith : VtcArith
  deriving DecidableEq, Repr, Inhabited

/-- The parameters of the block that `State.reset` stands for. Free: the spec gives none of them a value
(91_not_in_source.md N16, N17, N20, N9). DESIGN CHOICE, log entry 2: safe. -/
opaque Config.installed : Params

/-- The oracle's answer to the action drawn as number `n`, where no scripted answer stands in State (20_memory.md R63: a
free draw with no law). DESIGN CHOICE, log entry 1: safe. -/
opaque Config.freeAnswer (n : Nat) (action : Action) : Answer

/-- How far a binary64 evaluation of the formula lies from its exact value, for a voltage, VREF, ofs, c and m, before the
converter confines it to binary64 error (41_transfer_function.md R170: the order of operations and the intermediate
rounding are not in the source). Free: DESIGN CHOICE, log entry 3. -/
opaque Config.binary64Deviation (voltage vref : Rat) (ofs c m : Nat) : Rat

end Sys2Proof
end

