-- ==== Sys2Proof/WellFormed.lean ====
section
/-! DEFINITION. The range checks of 42_control_fsm.md R181, on a channel address and on the write frames that carry one. -/

namespace Sys2Proof

/-- 42_control_fsm.md R181: group 0 to 4 and channel 0 to 7, where the address has them. -/
def ChannelAddress.wf : ChannelAddress → Bool
  | .allCh => true
  | .singleGroup g => decide (g < 5)
  | .singleCh g c => decide (g < 5) && decide (c < 8)
  | .chx c => decide (c < 8)
  | .chxExceptGroup0 c => decide (c < 8)

/-- The channel address of a write frame (30_encoding.md R82); the other frames have none. -/
def Instr.target : Instr → Option ChannelAddress
  | .wrDataAll _ => some .allCh
  | .wrDataGrp g _ => some (.singleGroup g)
  | .wrDataCh g c _ => some (.singleCh g c)
  | .wrDataChx c _ => some (.chx c)
  | .wrDataChxng0 c _ => some (.chxExceptGroup0 c)
  | .wrOffsetAll _ => some .allCh
  | .wrOffsetGrp g _ => some (.singleGroup g)
  | .wrOffsetCh g c _ => some (.singleCh g c)
  | .wrOffsetChx c _ => some (.chx c)
  | .wrOffsetChxng0 c _ => some (.chxExceptGroup0 c)
  | .wrGainAll _ => some .allCh
  | .wrGainGrp g _ => some (.singleGroup g)
  | .wrGainCh g c _ => some (.singleCh g c)
  | .wrGainChx c _ => some (.chx c)
  | .wrGainChxng0 c _ => some (.chxExceptGroup0 c)
  | .sfControl _ => none
  | .sfOfs0 _ => none
  | .sfOfs1 _ => none
  | .sfReadback _ => none
  | .sfSelect _ _ => none
  | .sfSelectAll _ => none
  | .rdX1a _ _ => none
  | .rdX1b _ _ => none
  | .rdC _ _ => none
  | .rdM _ _ => none
  | .rdControl => none
  | .rdOfs0 => none
  | .rdOfs1 => none
  | .rdSelect _ => none

/-- An instruction is well formed if its channel address is: the domain of the encoder (40_frame_codec.md R120). The
operands of the other frames are in range by their types (40_frame_codec.md R146, R148). -/
def Instr.wf (i : Instr) : Bool :=
  match i.target with
  | some t => t.wf
  | none => true

end Sys2Proof
end

