-- ==== Sys2Proof/Decode.lean ====
section
/-! DEFINITION. The frame codec (30_encoding.md, 40_frame_codec.md): the spec's `decode` and `decode_selector`, the
instruction decoder over them, and after it the encoders and the encoder of `Instr`. -/

namespace Sys2Proof

/-! ## Fields of a frame (30_encoding.md R80) -/

def Frame.mode (w : Frame) : BitVec 2 := w.extractLsb' 22 2
def Frame.addr (w : Frame) : BitVec 6 := w.extractLsb' 16 6
def Frame.data (w : Frame) : Word := w.extractLsb' 0 16

/-- `w = (mode << 22) | (addr << 16) | data` (30_encoding.md R80). -/
def Frame.ofFields (mode : BitVec 2) (addr : BitVec 6) (data : Word) : Frame := mode ++ addr ++ data

/-- The three bytes, byte 0 first (00_scope.md R10, 20_memory.md R55). -/
def Frame.byte0 (w : Frame) : Byte := w.extractLsb' 16 8
def Frame.byte1 (w : Frame) : Byte := w.extractLsb' 8 8
def Frame.byte2 (w : Frame) : Byte := w.extractLsb' 0 8
def Frame.bytes (w : Frame) : List Byte := [w.byte0, w.byte1, w.byte2]
def Frame.ofBytes (b0 b1 b2 : Byte) : Frame := b0 ++ b1 ++ b2

/-- The order of a frame's bits on the wire: bit 23 first, bit 0 last (20_memory.md R56; the bit order is the spec's own
choice, D2). -/
def Frame.wireBits (w : Frame) : List Bool := (List.range 24).map fun k => w.getLsbD (23 - k)

/-- The frame the transport clocks out while it captures a response (20_memory.md R61). -/
def dummyFrame : Frame := 0x000000#24

/-! ## The spec's decoder -/

/-- What `decode` yields (40_frame_codec.md R124). -/
inductive Decoded where
  | write (mode : Mode) (target : ChannelAddress) (data : Word)
  | special (address : SpecialFunctionAddress) (data : Word)
  | unrecognised (mode : BitVec 2) (addr : BitVec 6) (data : Word)
  deriving DecidableEq, Repr

/-- 30_encoding.md R81. -/
def Mode.ofBits (m : BitVec 2) : Mode :=
  if m = 3#2 then .data else if m = 2#2 then .offset else if m = 1#2 then .gain else .special

/-- The channel address of a code, by the ranges of 30_encoding.md R98; codes 6 and 7 stand for none (R90). -/
def decodeTarget (a : BitVec 6) : Option ChannelAddress :=
  let hi := (a.extractLsb' 3 3).toNat
  let lo := (a.extractLsb' 0 3).toNat
  if a.toNat = 0 then some .allCh
  else if a.toNat ≤ 5 then some (.singleGroup (a.toNat - 1))
  else if a.toNat ≤ 7 then none
  else if a.toNat ≤ 47 then some (.singleCh (hi - 1) lo)
  else if a.toNat ≤ 55 then some (.chx lo)
  else some (.chxExceptGroup0 lo)

/-- The special function of a code (30_encoding.md R91); codes 0, 4 and 12 to 63 stand for none (R92). -/
def decodeSpecialAddr (a : BitVec 6) : Option SpecialFunctionAddress :=
  if a.toNat = 1 then some .control
  else if a.toNat = 2 then some .ofs0
  else if a.toNat = 3 then some .ofs1
  else if a.toNat = 5 then some .readBack
  else if h : 6 ≤ a.toNat ∧ a.toNat ≤ 10 then some (.select ⟨a.toNat - 6, by omega⟩)
  else if a.toNat = 11 then some .selectAll
  else none

/-- `decode(w)` (40_frame_codec.md R124), total on every 24-bit value. -/
def decodeFrame (w : Frame) : Decoded :=
  match Mode.ofBits w.mode with
  | .special =>
    match decodeSpecialAddr w.addr with
    | some a => .special a w.data
    | none => .unrecognised w.mode w.addr w.data
  | m =>
    match decodeTarget w.addr with
    | some t => .write m t w.data
    | none => .unrecognised w.mode w.addr w.data

/-- Fields of a read-back selector (30_encoding.md R93). -/
def selClass (d : Word) : BitVec 3 := d.extractLsb' 13 3
def selNumber (d : Word) : BitVec 6 := d.extractLsb' 7 6
def selZero (d : Word) : BitVec 7 := d.extractLsb' 0 7

/-- The group and channel of a channel sequence number 8 to 47 (30_encoding.md R98). -/
def channelOfSeq (n : Nat) : Option (GroupNo × ChanNo) :=
  if h : 8 ≤ n ∧ n ≤ 47 then
    some (⟨(n - 8) / 8, by omega⟩, ⟨(n - 8) % 8, by omega⟩)
  else none

/-- `decode_selector(d)` (40_frame_codec.md R125); `none` is the spec's Unrecognised. -/
def decodeSelector (d : Word) : Option ReadBackAddr :=
  let n := (selNumber d).toNat
  if selZero d ≠ 0#7 then none
  else if selClass d = 0#3 then (channelOfSeq n).map fun p => .x1a p.1 p.2
  else if selClass d = 1#3 then (channelOfSeq n).map fun p => .x1b p.1 p.2
  else if selClass d = 2#3 then (channelOfSeq n).map fun p => .c p.1 p.2
  else if selClass d = 3#3 then (channelOfSeq n).map fun p => .m p.1 p.2
  else if selClass d = 4#3 then
    if n = 1 then some .control
    else if n = 2 then some .ofs0
    else if n = 3 then some .ofs1
    else if h : 6 ≤ n ∧ n ≤ 10 then some (.select ⟨n - 6, by omega⟩)
    else none
  else none

/-! ## The instruction decoder -/

/-- Why bytes are no instruction: too few of them, or a frame of no row of the table (40_frame_codec.md R156). -/
inductive DecodeError where
  | truncated
  | unrecognised (mode : BitVec 2) (addr : BitVec 6) (data : Word)
  deriving DecidableEq, Repr

/-- The `rd` form of a register (30_encoding.md R103). -/
def ReadBackAddr.request : ReadBackAddr → Instr
  | .x1a g ch => .rdX1a g ch
  | .x1b g ch => .rdX1b g ch
  | .c g ch => .rdC g ch
  | .m g ch => .rdM g ch
  | .control => .rdControl
  | .ofs0 => .rdOfs0
  | .ofs1 => .rdOfs1
  | .select g => .rdSelect g

/-- The instruction of a ReadBack frame: the `rd` form where its selector names a register, else `sf.readback`. -/
def readbackInstr (d : Word) : Instr :=
  match decodeSelector d with
  | some r => r.request
  | none => .sfReadback d

/-- The write frame of mode Data, Offset or Gain with a target; mode Special has none (40_frame_codec.md R120). -/
def writeInstr (m : Mode) (t : ChannelAddress) (d : Word) : Option Instr :=
  match m, t with
  | .data, .allCh => some (.wrDataAll d)
  | .data, .singleGroup g => some (.wrDataGrp g d)
  | .data, .singleCh g c => some (.wrDataCh g c d)
  | .data, .chx c => some (.wrDataChx c d)
  | .data, .chxExceptGroup0 c => some (.wrDataChxng0 c d)
  | .offset, .allCh => some (.wrOffsetAll d)
  | .offset, .singleGroup g => some (.wrOffsetGrp g d)
  | .offset, .singleCh g c => some (.wrOffsetCh g c d)
  | .offset, .chx c => some (.wrOffsetChx c d)
  | .offset, .chxExceptGroup0 c => some (.wrOffsetChxng0 c d)
  | .gain, .allCh => some (.wrGainAll d)
  | .gain, .singleGroup g => some (.wrGainGrp g d)
  | .gain, .singleCh g c => some (.wrGainCh g c d)
  | .gain, .chx c => some (.wrGainChx c d)
  | .gain, .chxExceptGroup0 c => some (.wrGainChxng0 c d)
  | .special, _ => none

def specialInstr (a : SpecialFunctionAddress) (d : Word) : Instr :=
  match a with
  | .control => .sfControl d
  | .ofs0 => .sfOfs0 d
  | .ofs1 => .sfOfs1 d
  | .readBack => readbackInstr d
  | .select g => .sfSelect g d
  | .selectAll => .sfSelectAll d

/-- The instruction a frame is; a frame of no row is rejected with its three raw fields (40_frame_codec.md R156). -/
def decodeInstr (w : Frame) : Except DecodeError Instr :=
  match decodeFrame w with
  | .write m t d =>
    match writeInstr m t d with
    | some i => .ok i
    | none => .error (.unrecognised w.mode w.addr w.data)
  | .special a d => .ok (specialInstr a d)
  | .unrecognised m a d => .error (.unrecognised m a d)

/-- The first instruction of a byte string and the bytes after it. Every instruction is three bytes
(30_encoding.md R101). -/
def decode : List Byte → Except DecodeError (Instr × List Byte)
  | b0 :: b1 :: b2 :: rest => (decodeInstr (Frame.ofBytes b0 b1 b2)).map fun i => (i, rest)
  | _ => .error .truncated

/-- The frame whose bits spec/opcode_table.json numbers: bit 0 is the frame's least significant bit. -/
def tableFrame (nbits w : Nat) : Frame := BitVec.ofNat 24 (w % 2 ^ nbits)

/-- The instruction the decoder reads from the bytes of a table word. -/
def decodeTableWord (nbits w : Nat) : Option Instr :=
  match decode (tableFrame nbits w).bytes with
  | .ok (i, _) => some i
  | .error _ => none

/-! ## The encoders -/

/-- `modeval` (30_encoding.md R81). -/
def Mode.bits : Mode → BitVec 2
  | .data => 3#2
  | .offset => 2#2
  | .gain => 1#2
  | .special => 0#2

/-- The channel sequence number (00_scope.md R13). -/
def seq (g c : Nat) : Nat := g * 8 + c + 8

/-- `chcode` (30_encoding.md R85 to R89). -/
def chcode : ChannelAddress → BitVec 6
  | .allCh => 0#6
  | .singleGroup g => BitVec.ofNat 6 (g + 1)
  | .singleCh g c => BitVec.ofNat 6 (seq g c)
  | .chx c => BitVec.ofNat 6 (48 + c)
  | .chxExceptGroup0 c => BitVec.ofNat 6 (56 + c)

/-- `sfcode` (30_encoding.md R91). -/
def sfcode : SpecialFunctionAddress → BitVec 6
  | .control => 1#6
  | .ofs0 => 2#6
  | .ofs1 => 3#6
  | .readBack => 5#6
  | .select g => BitVec.ofNat 6 (6 + g.val)
  | .selectAll => 11#6

/-- `encode_write` (40_frame_codec.md R120): defined for the modes Data, Offset and Gain and a well-formed target, and for
nothing else (93_implementation_defined.md I4 and I5). -/
def encodeWrite (m : Mode) (t : ChannelAddress) (d : Word) : Option Frame :=
  if m = .special then none
  else if t.wf then some (Frame.ofFields m.bits (chcode t) d)
  else none

/-- `encode_special` (40_frame_codec.md R121). -/
def encodeSpecial (a : SpecialFunctionAddress) (d : Word) : Frame := Frame.ofFields 0#2 (sfcode a) d

/-- A selector from its class and number: `(K << 13) | (N << 7)` (30_encoding.md R93). -/
def selOf (k : BitVec 3) (n : Nat) : Word := k ++ BitVec.ofNat 6 n ++ 0#7

/-- `sel` (40_frame_codec.md R123). -/
def sel : ReadBackAddr → Word
  | .x1a g c => selOf 0#3 (seq g c)
  | .x1b g c => selOf 1#3 (seq g c)
  | .c g c => selOf 2#3 (seq g c)
  | .m g c => selOf 3#3 (seq g c)
  | .control => selOf 4#3 1
  | .ofs0 => selOf 4#3 2
  | .ofs1 => selOf 4#3 3
  | .select g => selOf 4#3 (6 + g)

/-- `encode_read_request` (40_frame_codec.md R122). -/
def encodeReadRequest (r : ReadBackAddr) : Frame := encodeSpecial .readBack (sel r)

/-- What an encoder makes of a decoded frame; `none` outside the encoders' domain (40_frame_codec.md R126, law 4). -/
def encodeDecoded : Decoded → Option Frame
  | .write m t d => encodeWrite m t d
  | .special a d => some (encodeSpecial a d)
  | .unrecognised _ _ _ => none

/-- The frame of an instruction, from the encoding tables of 30_encoding.md. It is meant for well-formed instructions; for
the others the code wraps to six bits, and no meaning sends the result. -/
def Instr.encode : Instr → Frame
  | .wrDataAll d => Frame.ofFields 3#2 (chcode .allCh) d
  | .wrDataGrp g d => Frame.ofFields 3#2 (chcode (.singleGroup g)) d
  | .wrDataCh g c d => Frame.ofFields 3#2 (chcode (.singleCh g c)) d
  | .wrDataChx c d => Frame.ofFields 3#2 (chcode (.chx c)) d
  | .wrDataChxng0 c d => Frame.ofFields 3#2 (chcode (.chxExceptGroup0 c)) d
  | .wrOffsetAll d => Frame.ofFields 2#2 (chcode .allCh) d
  | .wrOffsetGrp g d => Frame.ofFields 2#2 (chcode (.singleGroup g)) d
  | .wrOffsetCh g c d => Frame.ofFields 2#2 (chcode (.singleCh g c)) d
  | .wrOffsetChx c d => Frame.ofFields 2#2 (chcode (.chx c)) d
  | .wrOffsetChxng0 c d => Frame.ofFields 2#2 (chcode (.chxExceptGroup0 c)) d
  | .wrGainAll d => Frame.ofFields 1#2 (chcode .allCh) d
  | .wrGainGrp g d => Frame.ofFields 1#2 (chcode (.singleGroup g)) d
  | .wrGainCh g c d => Frame.ofFields 1#2 (chcode (.singleCh g c)) d
  | .wrGainChx c d => Frame.ofFields 1#2 (chcode (.chx c)) d
  | .wrGainChxng0 c d => Frame.ofFields 1#2 (chcode (.chxExceptGroup0 c)) d
  | .sfControl d => encodeSpecial .control d
  | .sfOfs0 d => encodeSpecial .ofs0 d
  | .sfOfs1 d => encodeSpecial .ofs1 d
  | .sfReadback d => encodeSpecial .readBack d
  | .sfSelect g d => encodeSpecial (.select g) d
  | .sfSelectAll d => encodeSpecial .selectAll d
  | .rdX1a g c => encodeReadRequest (.x1a g c)
  | .rdX1b g c => encodeReadRequest (.x1b g c)
  | .rdC g c => encodeReadRequest (.c g c)
  | .rdM g c => encodeReadRequest (.m g c)
  | .rdControl => encodeReadRequest .control
  | .rdOfs0 => encodeReadRequest .ofs0
  | .rdOfs1 => encodeReadRequest .ofs1
  | .rdSelect g => encodeReadRequest (.select g)

/-- The one name the decoder gives an instruction's words: `sf.readback sel(R)` is `rd R` (30_encoding.md R103); every other
instruction is its own. -/
def Instr.canonical (i : Instr) : Instr :=
  match i with
  | .sfReadback d => readbackInstr d
  | _ => i

end Sys2Proof
end

