-- ==== Sys2Proof/Machine/State.lean ====
section
/-! DEFINITION. State as plain data: the block's own state (10_state.md R20), and the model's fields for the other agents
of 00_scope.md R6 (the host contexts, the Executor, the oracle) and for the observation of a run (00_scope.md R7). -/

namespace Sys2Proof.Machine

/-! ## The block's state (10_state.md) -/

/-- The register mirror, the trim table (10_state.md R24 to R30). -/
structure Mirror where
  x1a : Vector U14 40
  x1b : Vector U14 40
  c : Vector U14 40
  m : Vector U14 40
  ofs0 : Word
  ofs1 : Word
  control : Byte
  select : Vector Byte 5
  deriving DecidableEq, Repr

/-- The last level the block drove onto each output line, as far as it knows (10_state.md R34). -/
structure Lines where
  reset : Level
  clr : Level
  ldac : Level
  deriving DecidableEq, Repr

/-- The control state machine's phase (10_state.md R37): `op o k` has completed `k` primitive actions of `o`. -/
inductive Phase where
  | idle
  | op (operation : HostOp) (k : Nat)
  deriving DecidableEq, Repr

/-! ## What is observed (00_scope.md R7) -/

/-- What NDS states the DAC does on a frame or on a line edge (20_memory.md R70 to R74). It describes the external agent;
no rule of the block reads it, and it claims nothing of what the DAC in fact does (70_reset_and_hazards.md R275). -/
inductive Reaction where
  | writeInput (channels : List (GroupNo × ChanNo)) (data : Word)
  | writeOffsetTrim (channels : List (GroupNo × ChanNo)) (data : Word)
  | writeGainTrim (channels : List (GroupNo × ChanNo)) (data : Word)
  | writeControl (data : Word)
  | writeOfs0 (data : Word)
  | writeOfs1 (data : Word)
  | writeSelect (group : GroupNo) (data : Word)
  | writeSelectAll (data : Word)
  | stageReadBack (register : ReadBackAddr)
  | reloadDefaults
  | perhapsReloadDefaults
  | outputsToClearCode
  | loadActive
  | nothingStated
  deriving DecidableEq, Repr

/-- The oracle's answer as the block sees it: a write or a line drive has no bytes (20_memory.md R60 to R62). -/
inductive Reply where
  | ok
  | bytes (response : Response)
  | err
  deriving DecidableEq, Repr

/-- One primitive action of the trace, its answer, and what NDS states the DAC does on it. -/
structure Event where
  action : Action
  reply : Reply
  reactions : List Reaction
  deriving DecidableEq, Repr

/-- The checks that raise General (60_exceptions.md R232). -/
inductive Check where
  | addressOutOfRange
  | nonFiniteVoltage
  deriving DecidableEq, Repr

/-- What a successful operation returns. `response` is what a read-back frame built by hand returns (log entry 5). -/
inductive Value where
  | unit
  | mirror (copy : Mirror)
  | vref (volts : Volts)
  | response (value : Word)
  deriving DecidableEq, Repr

/-- The result of a host operation (00_scope.md R12) with the info 60_exceptions.md R230 records: for HardwareIO the
failed action (its kind, its frame or line) and its index in the operation, for General the failed check. -/
inductive Result where
  | ok (value : Value)
  | hardwareIO (action : Action) (k : Nat)
  | general (check : Check)
  deriving DecidableEq, Repr

/-! ## The state -/

/-- `mirror`, `lines` and `phase` are the block's state (10_state.md R20). The other fields are the model's: the parameters
fixed at creation (`params`, which no step writes), the BUSY input that nothing samples (10_state.md R36), the bus lock's
holder and the calls waiting for it (20_memory.md R66), the oracle's coming answers and the number of draws made
(20_memory.md R63), and the observation: trace and results, oldest first (00_scope.md R7). -/
structure State where
  mirror : Mirror
  lines : Lines
  phase : Phase
  params : Params
  busy : Level
  executorHoldsLock : Bool
  hostCalls : List HostCall
  executorCalls : List ExecutorCall
  answers : List Answer
  draws : Nat
  trace : List Event
  results : List Result
  deriving DecidableEq, Repr

/-- The mirror when the block is created (10_state.md R39). -/
def Mirror.creation : Mirror where
  x1a := Vector.replicate 40 0x1555#14
  x1b := Vector.replicate 40 0x1555#14
  c := Vector.replicate 40 0x2000#14
  m := Vector.replicate 40 0x3FFF#14
  ofs0 := 0x1555#16
  ofs1 := 0x1555#16
  control := 0x00#8
  select := Vector.replicate 5 0x00#8

/-- Creation of the block (10_state.md R39, 70_reset_and_hazards.md R260): the one event that resets its state. The model's
own fields: the installed parameters (log entry 2), BUSY unknown (log entry 9), the lock free and no call waiting (log
entries 7 and 25), no scripted answer and no draw made (log entry 1), nothing observed yet (log entry 25). -/
def State.reset : State where
  mirror := Mirror.creation
  lines := ⟨.unknown, .unknown, .unknown⟩
  phase := .idle
  params := Config.installed
  busy := .unknown
  executorHoldsLock := false
  hostCalls := []
  executorCalls := []
  answers := []
  draws := 0
  trace := []
  results := []

/-! ## Stops -/

/-- No fault exists: the block has no traps, and its errors are results that a host operation returns
(60_exceptions.md R235), so a step that meets one goes on. -/
inductive Fault where
  deriving DecidableEq, Repr

/-- Why a step has no meaning. -/
inductive Refusal where
  /-- An arm of `exec` whose instruction has no meaning yet. No arm is left so. Safe. -/
  | notModelled (mnemonic : String)
  /-- Raised by `step` alone, for a hand-built frame of no row of the opcode table: "A model of the decoder layer refuses an
  `Unrecognised` frame by name" (40_frame_codec.md R156). Safe: nothing is claimed of such a frame. -/
  | unrecognisedFrame (mode : BitVec 2) (addr : BitVec 6) (data : Word)
  deriving DecidableEq, Repr

end Sys2Proof.Machine
end

