-- ==== Sys2Proof/Machine/Operands.lean ====
section
/-! DEFINITION. Operand forms: the channel set of an address (20_memory.md R51), the mirror index (00_scope.md R13), the
representative pair (41_transfer_function.md R166), the value of a binary64 voltage (41_transfer_function.md R168), the
parameters' values (00_scope.md R9), and the checks of a host operation (42_control_fsm.md R181, R190). -/

namespace Sys2Proof.Machine

def allGroups : List GroupNo := [0, 1, 2, 3, 4]
def allChans : List ChanNo := [0, 1, 2, 3, 4, 5, 6, 7]

/-- Every (group, channel) pair, group-major and channel-minor (42_control_fsm.md R193). -/
def allChannels : List (GroupNo × ChanNo) := allGroups.flatMap fun g => allChans.map fun c => (g, c)

/-- The channels a ChannelAddress names (20_memory.md R51). -/
def addressed : ChannelAddress → List (GroupNo × ChanNo)
  | .allCh => allChannels
  | .singleGroup g => allChannels.filter fun p => decide (p.1.val = g)
  | .singleCh g c => allChannels.filter fun p => decide (p.1.val = g) && decide (p.2.val = c)
  | .chx c => allChannels.filter fun p => decide (p.2.val = c)
  | .chxExceptGroup0 c => allChannels.filter fun p => decide (p.1.val ≠ 0) && decide (p.2.val = c)

/-- `idx(group, ch) = group*8 + ch` (00_scope.md R13). -/
def chIdx (g : GroupNo) (c : ChanNo) : Fin 40 := ⟨g.val * 8 + c.val, by omega⟩

/-- A (group, channel) pair of numbers in range. -/
def channelAt (g c : Nat) : Option (GroupNo × ChanNo) :=
  if h : g < 5 ∧ c < 8 then some (⟨g, h.1⟩, ⟨c, h.2⟩) else none

/-- `rep(target)` (41_transfer_function.md R166); none for an address that the checks refuse. -/
def rep : ChannelAddress → Option (GroupNo × ChanNo)
  | .allCh => channelAt 0 0
  | .singleCh g c => channelAt g c
  | .singleGroup g => channelAt g 0
  | .chx c => channelAt 0 c
  | .chxExceptGroup0 c => channelAt 1 c

/-- The exact value of a finite binary64 number, none for NaN and the infinities (41_transfer_function.md R168). -/
def finiteVoltage (b : Binary64) : Option Rat :=
  let exponent := (b.extractLsb' 52 11).toNat
  let fraction := (b.extractLsb' 0 52).toNat
  if exponent = 2047 then none
  else
    let significand := if exponent = 0 then fraction else 2 ^ 52 + fraction
    let scale := if exponent = 0 then 1 else exponent
    let magnitude : Rat :=
      if 1075 ≤ scale then mkRat (significand * 2 ^ (scale - 1075) : Nat) 1
      else mkRat (significand : Nat) (2 ^ (1075 - scale))
    some (if b.getLsbD 63 then -magnitude else magnitude)

/-- VREF in volts (00_scope.md R9). -/
def voltsValue (v : Volts) : Rat := mkRat (v.numPred + 1 : Nat) (v.denPred + 1)

/-- LDAC_INIT_SEQ as the list that init drives (00_scope.md R9). -/
def ldacDrives : LdacInitSeq → List Drive
  | .none => []
  | .high => [.high]
  | .low => [.low]
  | .lowHigh => [.low, .high]
  | .highLow => [.high, .low]

/-- The operand checks in their order: the target first, then finiteness (42_control_fsm.md R181 and R190, 60_exceptions.md
R234). `none`: the operation may issue its actions. -/
def operandCheck : HostOp → Option Check
  | .init => none
  | .reset => none
  | .clear => none
  | .restoreClear => none
  | .setCode _ t => if t.wf then none else some .addressOutOfRange
  | .setVoltage v t =>
    if t.wf then
      match finiteVoltage v with
      | some _ => none
      | none => some .nonFiniteVoltage
    else some .addressOutOfRange
  | .setGain _ => none
  | .setOffset _ => none
  | .setLdac => none
  | .clearLdac => none
  | .readAll => none
  | .getReg => none
  | .getVref => none

end Sys2Proof.Machine
end

