-- ==== Sys2Proof/Machine/Converter.lean ====
section
/-! DEFINITION. The trim-compensated voltage-to-code converter (41_transfer_function.md R160 to R170). The 16-bit constants
against 14-bit trims are kept exactly as the spec gives them (90_conflicts.md C6). -/

namespace Sys2Proof.Machine

/-- OFS0 serves group 0, OFS1 groups 1 to 4 (41_transfer_function.md R161). -/
def spanOffset (m : Mirror) (g : GroupNo) : Word := if g = 0 then m.ofs0 else m.ofs1

/-- The unrounded value X over the exact rationals (41_transfer_function.md R163). -/
def unrounded (voltage vref : Rat) (ofs c m : Nat) : Rat :=
  (voltage * 65536 / (4 * vref) + (4 * (ofs : Rat) + 32768 - (c : Rat))) * (65536 / ((m : Rat) + 1))

/-- The sum of the sizes of X's terms: no intermediate of the formula is larger, in whatever order it is evaluated. -/
def unroundedSize (voltage vref : Rat) (ofs c m : Nat) : Rat :=
  (|voltage| * 65536 / (4 * vref) + (4 * (ofs : Rat) + 32768 + (c : Rat))) * (65536 / ((m : Rat) + 1))

/-- The relative error of one binary64 rounding to nearest, 2^-53. PRESUMED (IEEE 754), log entry 3: unsafe. -/
def unitRoundoff : Rat := 1 / 2 ^ 53

/-- Binary64 error (41_transfer_function.md R170). The formula has ten operations and VREF is rounded once, so at most
eleven roundings lie between an operand and the result; the twelfth covers their products. DEDUCED, log entry 3: unsafe. -/
def binary64Error (voltage vref : Rat) (ofs c m : Nat) : Rat :=
  12 * unitRoundoff * unroundedSize voltage vref ofs c m

/-- `x`, or the end of the interval from `-bound` to `bound` that is nearest to it. -/
def confine (bound x : Rat) : Rat := max (-bound) (min bound x)

/-- X under VTC_ARITH (41_transfer_function.md R163); under binary64, any value within binary64 error of the exact X, free
within it (R170). -/
def convertedX (arith : VtcArith) (voltage vref : Rat) (ofs c m : Nat) : Rat :=
  match arith with
  | .exact => unrounded voltage vref ofs c m
  | .binary64 =>
    unrounded voltage vref ofs c m +
      confine (binary64Error voltage vref ofs c m) (Config.binary64Deviation voltage vref ofs c m)

/-- The nearest integer; a tie goes away from zero or to the even neighbour (41_transfer_function.md R164). -/
def roundRat (ties : RoundTies) (x : Rat) : Int :=
  let below := x.floor
  let part := x - (below : Rat)
  if part < 1 / 2 then below
  else if 1 / 2 < part then below + 1
  else
    match ties with
    | .away => if 0 ≤ x then below + 1 else below
    | .even => if below % 2 = 0 then below else below + 1

/-- `n mod 65536`, for every integer n (41_transfer_function.md R165). -/
def wrapCode (n : Int) : Word := BitVec.ofInt 16 n

/-- `voltage_to_code` (41_transfer_function.md R160 to R165) for a finite voltage. -/
def voltageToCode (p : Params) (m : Mirror) (voltage : Rat) (g : GroupNo) (c : ChanNo) : Word :=
  wrapCode (roundRat p.roundTies
    (convertedX p.vtcArith voltage (voltsValue p.vref) (spanOffset m g).toNat (m.c[chIdx g c]).toNat
      (m.m[chIdx g c]).toNat))

end Sys2Proof.Machine
end

