-- ==== Sys2Proof/Machine/Flags.lean ====
section
/-! DEFINITION. The block has no condition flags (10_state.md R23). What stands in for them: the defined bits of the
mirror's control and select bytes, the lines' polarity, and the code and name of an error. -/

namespace Sys2Proof.Machine

/-- The control byte's defined bits (10_state.md R29; the positions are the spec's own choice, D25). -/
def controlAB (m : Mirror) : Bool := m.control.getLsbD 2
def controlTsdEn (m : Mirror) : Bool := m.control.getLsbD 1
def controlSpd (m : Mirror) : Bool := m.control.getLsbD 0

/-- The control byte's reserved bits 7:3, always 0 in the mirror (10_state.md R29). -/
def controlReserved (m : Mirror) : BitVec 5 := m.control.extractLsb' 3 5

/-- The input bank of a channel. -/
inductive Bank where
  | a | b
  deriving DecidableEq, Repr

/-- Bit `ch` of `select[group]`: 0 is bank A, 1 is bank B (10_state.md R30; bit order and polarity are the spec's own
choice, D25). -/
def selectedBank (m : Mirror) (g : GroupNo) (c : ChanNo) : Bank :=
  if (m.select[g]).getLsbD c.val then .b else .a

/-- The level a drive leaves (20_memory.md R62). -/
def driveLevel : Drive → Level
  | .high => .high
  | .low => .low

/-- All three output lines are active low (10_state.md R35); CLR's polarity is the spec's own choice (D12). -/
def assertedDrive : Line → Drive
  | .reset => .low
  | .clr => .low
  | .ldac => .low

def deassertedDrive : Line → Drive
  | .reset => .high
  | .clr => .high
  | .ldac => .high

/-- The codes of the two error kinds (60_exceptions.md R230); a success has none. -/
def errorCode : Result → Option Nat
  | .ok _ => none
  | .hardwareIO _ _ => some 1
  | .general _ => some 2

/-- The names of the failed checks (42_control_fsm.md R181, R190). -/
def checkName : Check → String
  | .addressOutOfRange => "address out of range"
  | .nonFiniteVoltage => "non-finite voltage"

end Sys2Proof.Machine
end

