-- ==== Sys2Proof/Machine/Device.lean ====
section
/-! DEFINITION. The outbound interface: the transport call a primitive action makes (20_memory.md R60 to R62), the frames it
puts on the bus, and what NDS states the DAC does on each (20_memory.md R70 to R74). The reactions describe the external
agent. Nothing in the block reads them. -/

namespace Sys2Proof.Machine

/-- A call of the external transport or of a digital output (20_memory.md R60, R62). -/
inductive TransportCall where
  | write (b0 b1 b2 : Byte)
  | read (p0 p1 p2 : Byte) (length : Nat)
  | setLine (line : Line)
  | resetLine (line : Line)
  deriving DecidableEq, Repr

def transportCall : Action → TransportCall
  | .busWrite f => .write f.byte0 f.byte1 f.byte2
  | .busRead f => .read f.byte0 f.byte1 f.byte2 3
  | .lineDrive l .high => .setLine l
  | .lineDrive l .low => .resetLine l

/-- The frames the DAC receives in one action: a BusRead's request is followed by the dummy frame (20_memory.md R61). -/
def framesOnBus : Action → List Frame
  | .busWrite f => [f]
  | .busRead f => [f, dummyFrame]
  | .lineDrive _ _ => []

/-- 20_memory.md R74 and R73, R52: what NDS states a frame does at the DAC. A frame the encoder never emits, and a selector
of no register, have no stated effect (30_encoding.md R99, R96). -/
def frameReaction (f : Frame) : Reaction :=
  match decodeFrame f with
  | .write .data t d => .writeInput (addressed t) d
  | .write .offset t d => .writeOffsetTrim (addressed t) d
  | .write .gain t d => .writeGainTrim (addressed t) d
  | .write .special _ _ => .nothingStated
  | .special .control d => .writeControl d
  | .special .ofs0 d => .writeOfs0 d
  | .special .ofs1 d => .writeOfs1 d
  | .special .readBack d =>
    match decodeSelector d with
    | some r => .stageReadBack r
    | none => .nothingStated
  | .special (.select g) d => .writeSelect g d
  | .special .selectAll d => .writeSelectAll d
  | .unrecognised _ _ _ => .nothingStated

/-- 20_memory.md R70 to R72, from the level the block last knew. A drive of RESET to High is a rising edge where the line
read Low, and may be one where it read Unknown. CLR driven Low again has no further effect (42_control_fsm.md R184). -/
def lineReaction (before : Lines) : Line → Drive → Reaction
  | .reset, .high =>
    match before.reset with
    | .low => .reloadDefaults
    | .unknown => .perhapsReloadDefaults
    | .high => .nothingStated
  | .reset, .low => .nothingStated
  | .clr, .low =>
    match before.clr with
    | .low => .nothingStated
    | .high => .outputsToClearCode
    | .unknown => .outputsToClearCode
  | .clr, .high => .nothingStated
  | .ldac, .low => .loadActive
  | .ldac, .high => .nothingStated

/-- What NDS states the DAC does on an action that reaches it, frame by frame. -/
def reactions (before : Lines) (a : Action) : List Reaction :=
  match a with
  | .lineDrive l v => [lineReaction before l v]
  | .busWrite f => (framesOnBus (.busWrite f)).map frameReaction
  | .busRead f => (framesOnBus (.busRead f)).map frameReaction

end Sys2Proof.Machine
end

