-- ==== Sys2Proof/Machine/Scan.lean ====
section
/-! DEFINITION. read_all's request list and the filing of its responses (42_control_fsm.md R193, R194; 20_memory.md R64;
10_state.md R31). -/

namespace Sys2Proof.Machine

/-- The list L of 163 requests (42_control_fsm.md R193): group-major, channel-minor, then OFS0, then OFS1 twice. -/
def readList : List ReadBackAddr :=
  (allChannels.flatMap fun p => [.x1a p.1 p.2, .x1b p.1 p.2, .c p.1 p.2, .m p.1 p.2])
    ++ [.ofs0, .ofs1, .ofs1]

/-- `resp16 = (b1 << 8) | b2`; b0 is ignored (20_memory.md R64). -/
def resp16 (r : Response) : Word := r.b1 ++ r.b2

/-- Truncation to a 14-bit mirror field (10_state.md R31). -/
def trunc14 (v : Word) : U14 := v.setWidth 14

/-- `store(tgt, v)` (42_control_fsm.md R194). Control and select are never read back, so they are never stored. -/
def storeResponse (tgt : ReadBackAddr) (v : Word) (m : Mirror) : Mirror :=
  match tgt with
  | .x1a g c => { m with x1a := m.x1a.set (chIdx g c) (trunc14 v) }
  | .x1b g c => { m with x1b := m.x1b.set (chIdx g c) (trunc14 v) }
  | .c g c => { m with c := m.c.set (chIdx g c) (trunc14 v) }
  | .m g c => { m with m := m.m.set (chIdx g c) (trunc14 v) }
  | .ofs0 => { m with ofs0 := v }
  | .ofs1 => { m with ofs1 := v }
  | .control => m
  | .select _ => m

/-- Where the response to request k goes: its own register, or that of the request before it (42_control_fsm.md R194). -/
def responseTarget (shift : ReadbackShift) (k : Nat) : Option ReadBackAddr :=
  match shift, k with
  | .zero, k => readList[k]?
  | .one, 0 => none
  | .one, k + 1 => readList[k]?

/-- The mirror after the response to request k (42_control_fsm.md R194). -/
def fileResponse (shift : ReadbackShift) (k : Nat) (v : Word) (m : Mirror) : Mirror :=
  match responseTarget shift k with
  | some tgt => storeResponse tgt v m
  | none => m

end Sys2Proof.Machine
end

