-- ==== Sys2Proof/Machine/Ops.lean ====
section
/-! DEFINITION. The shared operations: drawing an answer from the oracle (20_memory.md R63), what a primitive action does
(`perform`), how a host operation ends, with success or with an error (`finish`: 60_exceptions.md R235, the block's whole
exception entry; there is no return from it, R237), and sending a write frame after the range check. -/

namespace Sys2Proof.Machine

/-- The oracle's answer to the next action: the next scripted answer, or a free draw (20_memory.md R63; log entry 1). -/
def State.nextAnswer (s : State) (a : Action) : Answer :=
  match s.answers with
  | x :: _ => x
  | [] => Config.freeAnswer s.draws a

/-- The oracle has answered once more. -/
def State.drawn (s : State) : State :=
  { s with answers := s.answers.tail, draws := s.draws + 1 }

/-- The answer as the block sees it: only a BusRead yields bytes (20_memory.md R60 to R62). -/
def replyOf (a : Action) (x : Answer) : Reply :=
  match x with
  | .err => .err
  | .ok r =>
    match a with
    | .busRead _ => .bytes r
    | .busWrite _ => .ok
    | .lineDrive _ _ => .ok

/-- The trace gains the action, its answer and the DAC's stated reactions (00_scope.md R7). -/
def State.record (a : Action) (x : Answer) (s : State) : State :=
  { s with trace := s.trace ++ [⟨a, replyOf a x, reactions s.lines a⟩] }

def Lines.get (ls : Lines) : Line → Level
  | .reset => ls.reset
  | .clr => ls.clr
  | .ldac => ls.ldac

def Lines.put (ls : Lines) (l : Line) (v : Level) : Lines :=
  match l with
  | .reset => { ls with reset := v }
  | .clr => { ls with clr := v }
  | .ldac => { ls with ldac := v }

/-- On Ok the line has the level driven, on Err it is Unknown (20_memory.md R62). -/
def levelAfter (v : Drive) (x : Answer) : Level :=
  match x with
  | .ok _ => driveLevel v
  | .err => .unknown

/-- The lines after an action: only a LineDrive moves one (20_memory.md R62). -/
def linesAfter (a : Action) (x : Answer) (ls : Lines) : Lines :=
  match a with
  | .lineDrive l v => ls.put l (levelAfter v x)
  | .busWrite _ => ls
  | .busRead _ => ls

/-- The mirror after an action: only a successful BusRead of read_all writes it (10_state.md R32, 42_control_fsm.md R194). -/
def mirrorAfter (p : Params) (ph : Phase) (a : Action) (x : Answer) (m : Mirror) : Mirror :=
  match ph, a, x with
  | .op .readAll k, .busRead _, .ok r => fileResponse p.readbackShift k (resp16 r) m
  | _, _, _ => m

/-- The end of an operation, with success or with an error: the result goes to the caller and `phase <- Idle`
(42_control_fsm.md R180, 60_exceptions.md R235). -/
def State.finish (r : Result) (s : State) : State :=
  { s with phase := .idle, results := s.results ++ [r] }

/-- What a frame sent by hand returns to its sender: a read request returns the 16-bit response (log entry 5). -/
def handFrameValue (a : Action) (r : Response) : Value :=
  match a with
  | .busRead _ => .response (resp16 r)
  | .busWrite _ => .unit
  | .lineDrive _ _ => .unit

/-- After an action: in an operation, k increases by 1 on Ok, and Err ends the operation with HardwareIO
(42_control_fsm.md R180, 60_exceptions.md R231); a frame sent by hand is one action and ends with it. -/
def State.advance (a : Action) (x : Answer) (s : State) : State :=
  match s.phase, x with
  | .op o k, .ok _ => { s with phase := .op o (k + 1) }
  | .op _ k, .err => s.finish (.hardwareIO a k)
  | .idle, .ok r => s.finish (.ok (handFrameValue a r))
  | .idle, .err => s.finish (.hardwareIO a 0)

/-- One primitive action with a given answer. -/
def State.answered (a : Action) (x : Answer) (s : State) : State :=
  State.advance a x
    { s.drawn.record a x with
      lines := linesAfter a x s.lines
      mirror := mirrorAfter s.params s.phase a x s.mirror }

/-- One primitive action: the oracle answers it (20_memory.md R58, R63). -/
def perform (a : Action) (s : State) : State := s.answered a (s.nextAnswer a)

/-- Send a write frame: a target out of range is refused with General and no action (42_control_fsm.md R181, the corner
cases of 40_frame_codec.md R128 and R129); otherwise the encoded frame is written. -/
def sendWrite (m : Mode) (t : ChannelAddress) (d : Word) (s : State) :
    Host.Outcome State Fault Refusal :=
  .next
    (match encodeWrite m t d with
     | some f => perform (.busWrite f) s
     | none => s.finish (.general .addressOutOfRange))

/-- Send a special frame that writes a DAC register (40_frame_codec.md R121). -/
def sendSpecial (a : SpecialFunctionAddress) (d : Word) (s : State) :
    Host.Outcome State Fault Refusal :=
  .next (perform (.busWrite (encodeSpecial a d)) s)

/-- Send a ReadBack frame as the request of a BusRead, the one primitive the spec sends it with (40_frame_codec.md R145,
42_control_fsm.md R193; log entry 4). -/
def sendReadback (selector : Word) (s : State) : Host.Outcome State Fault Refusal :=
  .next (perform (.busRead (encodeSpecial .readBack selector)) s)

/-- Send `rd R` (40_frame_codec.md R122). -/
def sendRequest (r : ReadBackAddr) (s : State) : Host.Outcome State Fault Refusal :=
  .next (perform (.busRead (encodeReadRequest r)) s)

end Sys2Proof.Machine
end

