-- ==== Sys2Proof/Machine/Control.lean ====
section
/-! DEFINITION. The control state machine: the primitive actions of every host operation in order (42_control_fsm.md R182 to
R197), its start, its end, and what the next step is (`fetch`): an action of the operation in progress, the next call that
holds the bus lock (20_memory.md R66), or a frame sent by hand. -/

namespace Sys2Proof.Machine

/-- The BusWrite of an encoded write frame; no action outside the encoder's domain, which the checks have refused. -/
def writeAction (m : Mode) (t : ChannelAddress) (d : Word) : List Action :=
  match encodeWrite m t d with
  | some f => [.busWrite f]
  | none => []

/-- set_voltage's one action (42_control_fsm.md R190): the code from the representative pair's trims, sent as set_code
sends it. -/
def voltageAction (p : Params) (m : Mirror) (voltage : Binary64) (t : ChannelAddress) : List Action :=
  match rep t, finiteVoltage voltage with
  | some (g, c), some v => writeAction .data t (voltageToCode p m v g c)
  | _, _ => []

/-- The primitive actions of a host operation, in order (42_control_fsm.md R182 to R197). set_voltage's depends on the
mirror, which no action of set_voltage writes. -/
def actionsOf (p : Params) (m : Mirror) : HostOp → List Action
  | .init =>
    [.lineDrive .reset .high, .lineDrive .clr .high]
      ++ (ldacDrives p.ldacInitSeq).map fun v => .lineDrive .ldac v
  | .reset => [.lineDrive .reset .low, .lineDrive .reset .high]
  | .clear => [.lineDrive .clr .low]
  | .restoreClear => [.lineDrive .clr .high]
  | .setCode code t => writeAction .data t code
  | .setVoltage v t => voltageAction p m v t
  | .setGain value => writeAction .gain .allCh value
  | .setOffset value => writeAction .offset .allCh value
  | .setLdac => [.lineDrive .ldac .high]
  | .clearLdac => [.lineDrive .ldac .low]
  | .readAll => readList.map fun r => .busRead (encodeReadRequest r)
  | .getReg => []
  | .getVref => []

/-- What a successful operation returns: get_reg a copy of the mirror (42_control_fsm.md R196), get_vref VREF (R197), the
others nothing. -/
def returnValue (p : Params) (m : Mirror) : HostOp → Value
  | .init => .unit
  | .reset => .unit
  | .clear => .unit
  | .restoreClear => .unit
  | .setCode _ _ => .unit
  | .setVoltage _ _ => .unit
  | .setGain _ => .unit
  | .setOffset _ => .unit
  | .setLdac => .unit
  | .clearLdac => .unit
  | .readAll => .unit
  | .getReg => .mirror m
  | .getVref => .vref p.vref

/-- The start of an operation: a failed operand check ends it with General and no action (60_exceptions.md R232), else
`phase <- Op(name, 0)` (42_control_fsm.md R180). -/
def startOp (o : HostOp) (s : State) : State :=
  match operandCheck o with
  | some c => s.finish (.general c)
  | none => { s with phase := .op o 0 }

/-- One step of an operation in progress: its action k, or its return where no action is left (10_state.md R37). -/
def continueOp (o : HostOp) (k : Nat) (s : State) : State :=
  match (actionsOf s.params s.mirror o)[k]? with
  | some a => perform a s
  | none => s.finish (.ok (returnValue s.params s.mirror o))

/-- What one step is: a frame sent by hand, to be decoded and run, or a step of the control state machine. -/
inductive Fetched where
  | frame (word : Frame) (rest : State)
  | moved (next : State)
  deriving DecidableEq, Repr

/-- The Waveform Executor's next call while it holds the bus lock (20_memory.md R66). With no call of it pending, nothing
runs: every direct caller waits (70_reset_and_hazards.md R272). -/
def serveExecutor (s : State) : State :=
  match s.executorCalls with
  | [] => s
  | .setCode code t :: rest => startOp (.setCode code t) { s with executorCalls := rest }
  | .stop :: rest => { s with executorCalls := rest, executorHoldsLock := false }

/-- The next direct call, when the Executor does not hold the lock. With none waiting, the block stays Idle. -/
def serveHost (s : State) : Fetched :=
  match s.hostCalls with
  | [] => .moved s
  | .op o :: rest => .moved (startOp o { s with hostCalls := rest })
  | .frame w :: rest => .frame w { s with hostCalls := rest }
  | .startExecutor :: rest => .moved { s with hostCalls := rest, executorHoldsLock := true }

/-- An operation in progress goes on; else the lock's holder is served (20_memory.md R66, 42_control_fsm.md R180). -/
def fetch (s : State) : Fetched :=
  match s.phase with
  | .op o k => .moved (continueOp o k s)
  | .idle => if s.executorHoldsLock then .moved (serveExecutor s) else serveHost s

/-- A frame placed where `fetch` takes the next frame sent by hand: the block Idle, the lock with the host, the frame the
first call waiting. -/
def placeFrame (w : Frame) (s : State) : State :=
  { s with phase := .idle, executorHoldsLock := false, hostCalls := .frame w :: s.hostCalls }

end Sys2Proof.Machine
end

