-- ==== Sys2Proof/Machine/DataWrites.lean ====
section
/-! DEFINITION. The Data writes (mode 3): one meaning per target form (40_frame_codec.md R127 to R131).
DAC effect as NDS states it: the input data register of each addressed channel is written (20_memory.md R74); the block's own
state is not. -/

namespace Sys2Proof.Machine

/-- `WR_DATA_ALL`: write `d` to all 40 channels (40_frame_codec.md R127). -/
def execWrDataAll (d : Word) (s : State) : Host.Outcome State Fault Refusal :=
  sendWrite .data .allCh d s

/-- `WR_DATA_GRP`: write `d` to the 8 channels of group g (40_frame_codec.md R128). -/
def execWrDataGrp (g : Nat) (d : Word) (s : State) : Host.Outcome State Fault Refusal :=
  sendWrite .data (.singleGroup g) d s

/-- `WR_DATA_CH`: write `d` to channel c of group g (40_frame_codec.md R129). -/
def execWrDataCh (g c : Nat) (d : Word) (s : State) : Host.Outcome State Fault Refusal :=
  sendWrite .data (.singleCh g c) d s

/-- `WR_DATA_CHX`: write `d` to channel c of groups 0 to 4 (40_frame_codec.md R130). -/
def execWrDataChx (c : Nat) (d : Word) (s : State) : Host.Outcome State Fault Refusal :=
  sendWrite .data (.chx c) d s

/-- `WR_DATA_CHXNG0`: write `d` to channel c of groups 1 to 4 (40_frame_codec.md R131). -/
def execWrDataChxng0 (c : Nat) (d : Word) (s : State) : Host.Outcome State Fault Refusal :=
  sendWrite .data (.chxExceptGroup0 c) d s

end Sys2Proof.Machine
end

