-- ==== Sys2Proof/Machine/GainWrites.lean ====
section
/-! DEFINITION. The Gain writes (mode 1): one meaning per target form (40_frame_codec.md R137 to R141).
DAC effect as NDS states it: the gain-trim register of each addressed channel is written (20_memory.md R74); the block's own
state is not. -/

namespace Sys2Proof.Machine

/-- `WR_GAIN_ALL`: write `d` to all 40 channels (40_frame_codec.md R137). -/
def execWrGainAll (d : Word) (s : State) : Host.Outcome State Fault Refusal :=
  sendWrite .gain .allCh d s

/-- `WR_GAIN_GRP`: write `d` to the 8 channels of group g (40_frame_codec.md R138). -/
def execWrGainGrp (g : Nat) (d : Word) (s : State) : Host.Outcome State Fault Refusal :=
  sendWrite .gain (.singleGroup g) d s

/-- `WR_GAIN_CH`: write `d` to channel c of group g (40_frame_codec.md R139). -/
def execWrGainCh (g c : Nat) (d : Word) (s : State) : Host.Outcome State Fault Refusal :=
  sendWrite .gain (.singleCh g c) d s

/-- `WR_GAIN_CHX`: write `d` to channel c of groups 0 to 4 (40_frame_codec.md R140). -/
def execWrGainChx (c : Nat) (d : Word) (s : State) : Host.Outcome State Fault Refusal :=
  sendWrite .gain (.chx c) d s

/-- `WR_GAIN_CHXNG0`: write `d` to channel c of groups 1 to 4 (40_frame_codec.md R141). -/
def execWrGainChxng0 (c : Nat) (d : Word) (s : State) : Host.Outcome State Fault Refusal :=
  sendWrite .gain (.chxExceptGroup0 c) d s

end Sys2Proof.Machine
end

