-- ==== Sys2Proof/Machine/OffsetWrites.lean ====
section
/-! DEFINITION. The Offset writes (mode 2): one meaning per target form (40_frame_codec.md R132 to R136).
DAC effect as NDS states it: the offset-trim register of each addressed channel is written (20_memory.md R74); the block's own
state is not. -/

namespace Sys2Proof.Machine

/-- `WR_OFFSET_ALL`: write `d` to all 40 channels (40_frame_codec.md R132). -/
def execWrOffsetAll (d : Word) (s : State) : Host.Outcome State Fault Refusal :=
  sendWrite .offset .allCh d s

/-- `WR_OFFSET_GRP`: write `d` to the 8 channels of group g (40_frame_codec.md R133). -/
def execWrOffsetGrp (g : Nat) (d : Word) (s : State) : Host.Outcome State Fault Refusal :=
  sendWrite .offset (.singleGroup g) d s

/-- `WR_OFFSET_CH`: write `d` to channel c of group g (40_frame_codec.md R134). -/
def execWrOffsetCh (g c : Nat) (d : Word) (s : State) : Host.Outcome State Fault Refusal :=
  sendWrite .offset (.singleCh g c) d s

/-- `WR_OFFSET_CHX`: write `d` to channel c of groups 0 to 4 (40_frame_codec.md R135). -/
def execWrOffsetChx (c : Nat) (d : Word) (s : State) : Host.Outcome State Fault Refusal :=
  sendWrite .offset (.chx c) d s

/-- `WR_OFFSET_CHXNG0`: write `d` to channel c of groups 1 to 4 (40_frame_codec.md R136). -/
def execWrOffsetChxng0 (c : Nat) (d : Word) (s : State) : Host.Outcome State Fault Refusal :=
  sendWrite .offset (.chxExceptGroup0 c) d s

end Sys2Proof.Machine
end

