-- ==== Sys2Proof/Machine/ReadBack.lean ====
section
/-! DEFINITION. The read-back requests: `SF_READBACK` and its `rd` pseudo-forms (40_frame_codec.md R145, R148 to R155). -/

namespace Sys2Proof.Machine

/-- `SF_READBACK`: start a read-back with any 16-bit selector (40_frame_codec.md R145). -/
def execSfReadback (selector : Word) (s : State) : Host.Outcome State Fault Refusal :=
  sendReadback selector s

/-- `RD_X1A`: request read-back of input bank A of a channel (40_frame_codec.md R148). -/
def execRdX1a (g : GroupNo) (c : ChanNo) (s : State) : Host.Outcome State Fault Refusal :=
  sendRequest (.x1a g c) s

/-- `RD_X1B`: request read-back of input bank B of a channel (40_frame_codec.md R149). -/
def execRdX1b (g : GroupNo) (c : ChanNo) (s : State) : Host.Outcome State Fault Refusal :=
  sendRequest (.x1b g c) s

/-- `RD_C`: request read-back of the offset trim of a channel (40_frame_codec.md R150). -/
def execRdC (g : GroupNo) (c : ChanNo) (s : State) : Host.Outcome State Fault Refusal :=
  sendRequest (.c g c) s

/-- `RD_M`: request read-back of the gain trim of a channel (40_frame_codec.md R151). -/
def execRdM (g : GroupNo) (c : ChanNo) (s : State) : Host.Outcome State Fault Refusal :=
  sendRequest (.m g c) s

/-- `RD_CONTROL`: request read-back of the control register (40_frame_codec.md R152). -/
def execRdControl (s : State) : Host.Outcome State Fault Refusal :=
  sendRequest .control s

/-- `RD_OFS0`: request read-back of OFS0 (40_frame_codec.md R153). -/
def execRdOfs0 (s : State) : Host.Outcome State Fault Refusal :=
  sendRequest .ofs0 s

/-- `RD_OFS1`: request read-back of OFS1 (40_frame_codec.md R154). -/
def execRdOfs1 (s : State) : Host.Outcome State Fault Refusal :=
  sendRequest .ofs1 s

/-- `RD_SELECT`: request read-back of group g's A/B select register (40_frame_codec.md R155). -/
def execRdSelect (g : GroupNo) (s : State) : Host.Outcome State Fault Refusal :=
  sendRequest (.select g) s

end Sys2Proof.Machine
end

