-- ==== Sys2Proof/Machine/SpecialWrites.lean ====
section
/-! DEFINITION. The special-function writes (mode 0): 40_frame_codec.md R142 to R147. The data field goes out unmasked. -/

namespace Sys2Proof.Machine

/-- `SF_CONTROL`: write the control register (40_frame_codec.md R142). -/
def execSfControl (d : Word) (s : State) : Host.Outcome State Fault Refusal :=
  sendSpecial .control d s

/-- `SF_OFS0`: write span-offset register OFS0 (40_frame_codec.md R143). -/
def execSfOfs0 (d : Word) (s : State) : Host.Outcome State Fault Refusal :=
  sendSpecial .ofs0 d s

/-- `SF_OFS1`: write span-offset register OFS1 (40_frame_codec.md R144). -/
def execSfOfs1 (d : Word) (s : State) : Host.Outcome State Fault Refusal :=
  sendSpecial .ofs1 d s

/-- `SF_SELECT`: write group g's A/B select register (40_frame_codec.md R146). -/
def execSfSelect (g : GroupNo) (d : Word) (s : State) : Host.Outcome State Fault Refusal :=
  sendSpecial (.select g) d s

/-- `SF_SELECT_ALL`: write all five A/B select registers at once (40_frame_codec.md R147). -/
def execSfSelectAll (d : Word) (s : State) : Host.Outcome State Fault Refusal :=
  sendSpecial .selectAll d s

end Sys2Proof.Machine
end

