-- ==== Sys2Proof/Machine/Dispatch.lean ====
section
/-! DEFINITION. One arm per constructor of Instr: each calls its meaning. -/

namespace Sys2Proof.Machine

def exec (i : Instr) (s : State) : Host.Outcome State Fault Refusal :=
  match i with
  | .wrDataAll d => Sys2Proof.Machine.execWrDataAll d s
  | .wrDataGrp g d => Sys2Proof.Machine.execWrDataGrp g d s
  | .wrDataCh g c d => Sys2Proof.Machine.execWrDataCh g c d s
  | .wrDataChx c d => Sys2Proof.Machine.execWrDataChx c d s
  | .wrDataChxng0 c d => Sys2Proof.Machine.execWrDataChxng0 c d s
  | .wrOffsetAll d => Sys2Proof.Machine.execWrOffsetAll d s
  | .wrOffsetGrp g d => Sys2Proof.Machine.execWrOffsetGrp g d s
  | .wrOffsetCh g c d => Sys2Proof.Machine.execWrOffsetCh g c d s
  | .wrOffsetChx c d => Sys2Proof.Machine.execWrOffsetChx c d s
  | .wrOffsetChxng0 c d => Sys2Proof.Machine.execWrOffsetChxng0 c d s
  | .wrGainAll d => Sys2Proof.Machine.execWrGainAll d s
  | .wrGainGrp g d => Sys2Proof.Machine.execWrGainGrp g d s
  | .wrGainCh g c d => Sys2Proof.Machine.execWrGainCh g c d s
  | .wrGainChx c d => Sys2Proof.Machine.execWrGainChx c d s
  | .wrGainChxng0 c d => Sys2Proof.Machine.execWrGainChxng0 c d s
  | .sfControl d => Sys2Proof.Machine.execSfControl d s
  | .sfOfs0 d => Sys2Proof.Machine.execSfOfs0 d s
  | .sfOfs1 d => Sys2Proof.Machine.execSfOfs1 d s
  | .sfReadback d => Sys2Proof.Machine.execSfReadback d s
  | .sfSelect g d => Sys2Proof.Machine.execSfSelect g d s
  | .sfSelectAll d => Sys2Proof.Machine.execSfSelectAll d s
  | .rdX1a g c => Sys2Proof.Machine.execRdX1a g c s
  | .rdX1b g c => Sys2Proof.Machine.execRdX1b g c s
  | .rdC g c => Sys2Proof.Machine.execRdC g c s
  | .rdM g c => Sys2Proof.Machine.execRdM g c s
  | .rdControl => Sys2Proof.Machine.execRdControl s
  | .rdOfs0 => Sys2Proof.Machine.execRdOfs0 s
  | .rdOfs1 => Sys2Proof.Machine.execRdOfs1 s
  | .rdSelect g => Sys2Proof.Machine.execRdSelect g s

end Sys2Proof.Machine
end

