-- ==== Sys2Proof/Machine/Step.lean ====
section
/-! DEFINITION. One step of the machine: a step of the control state machine, or a frame sent by hand, decoded and run. -/

namespace Sys2Proof.Machine

/-- A frame of no row of the table is refused by name (40_frame_codec.md R156). -/
def step (s : State) : Host.Outcome State Fault Refusal :=
  match fetch s with
  | .moved t => .next t
  | .frame w t =>
    match decodeInstr w with
    | .ok i => exec i t
    | .error _ => .refused (.unrecognisedFrame w.mode w.addr w.data)

/-- The table word `w` placed so that the next step runs it (log entry 6). -/
def State.withFetchWord (s : State) (nbits w : Nat) : State := placeFrame (tableFrame nbits w) s

end Sys2Proof.Machine
end

