-- ==== Sys2Proof/Safety.lean ====
section
/-! DEFINITION. The terms claims use: several steps, what one primitive action leaves, the mirror that a scan builds, and the
invariant of the machine. -/

namespace Sys2Proof.Machine

/-! ## Runs -/

/-- `n` steps lead from `s` to `t`, none of them a fault or a refusal. -/
def StepsTo : Nat → State → State → Prop
  | 0, s, t => s = t
  | n + 1, s, t => ∃ u, step s = .next u ∧ StepsTo n u t

/-- The oracle's answer to the action drawn `n` draws from now (20_memory.md R63). -/
def State.answerAt (s : State) (n : Nat) (a : Action) : Answer :=
  match s.answers[n]? with
  | some x => x
  | none => Config.freeAnswer (s.draws + n) a

/-- The next step serves a direct call: no operation in progress and the lock not held by the Executor. -/
def State.Ready (s : State) (c : HostCall) (rest : List HostCall) : Prop :=
  s.phase = .idle ∧ s.executorHoldsLock = false ∧ s.hostCalls = c :: rest

/-- The same change made to whatever next state an outcome answers. -/
def mapNext (f : State → State) : Host.Outcome State Fault Refusal → Host.Outcome State Fault Refusal
  | .next t => .next (f t)
  | .fault r => .fault r
  | .refused r => .refused r

/-- The observation of a run (00_scope.md R7, 70_reset_and_hazards.md R275): the primitive actions with the oracle's answers,
the results, and the final mirror and lines. It says nothing of the DAC. -/
structure Observation where
  actions : List (Action × Reply)
  results : List Result
  mirror : Mirror
  lines : Lines
  deriving DecidableEq, Repr

def State.observation (s : State) : Observation where
  actions := s.trace.map fun e => (e.action, e.reply)
  results := s.results
  mirror := s.mirror
  lines := s.lines

/-- A run has ended when its last operation has returned: the block is Idle and no call waits. An Executor that still
holds the lock does not keep it open (70_reset_and_hazards.md R275). -/
def State.ended (s : State) : Bool :=
  decide (s.phase = .idle) && s.hostCalls.isEmpty && s.executorCalls.isEmpty

/-! ## What one primitive action leaves -/

/-- What every primitive action leaves alone, and the one answer it draws. -/
structure OneDraw (s t : State) : Prop where
  answers : t.answers = s.answers.tail
  draws : t.draws = s.draws + 1
  params : t.params = s.params
  busy : t.busy = s.busy
  lock : t.executorHoldsLock = s.executorHoldsLock
  hostCalls : t.hostCalls = s.hostCalls
  executorCalls : t.executorCalls = s.executorCalls

/-- How phase and results move on one action: k increases on Ok, Err ends the operation with HardwareIO at index k
(42_control_fsm.md R180, 60_exceptions.md R231, R235); a frame sent by hand ends with its action, and `value` is what it
returns. -/
def ActionEnds (a : Action) (value : Response → Value) (s t : State) : Prop :=
  match s.phase, s.nextAnswer a with
  | .op o k, .ok _ => t.phase = .op o (k + 1) ∧ t.results = s.results
  | .op _ k, .err => t.phase = .idle ∧ t.results = s.results ++ [.hardwareIO a k]
  | .idle, .ok r => t.phase = .idle ∧ t.results = s.results ++ [.ok (value r)]
  | .idle, .err => t.phase = .idle ∧ t.results = s.results ++ [.hardwareIO a 0]

/-- From `s`, the frame `f` was written in one BusWrite on which NDS states the reaction `r`, and nothing else of the block
changed: no mirror entry and no line (40_frame_codec.md: "Block state written: none"). -/
structure FrameWritten (f : Frame) (r : Reaction) (s t : State) : Prop where
  trace : t.trace = s.trace ++
    [⟨.busWrite f, match s.nextAnswer (.busWrite f) with | .ok _ => .ok | .err => .err, [r]⟩]
  mirror : t.mirror = s.mirror
  lines : t.lines = s.lines
  ends : ActionEnds (.busWrite f) (fun _ => .unit) s t
  draw : OneDraw s t

/-- From `s`, the frame `f` was the request of one BusRead on which NDS states the reaction `r` (and none on the dummy
frame). No line changed, and no mirror entry, unless read_all is in progress and the read succeeded. -/
structure FrameRequested (f : Frame) (r : Reaction) (s t : State) : Prop where
  trace : t.trace = s.trace ++
    [⟨.busRead f, match s.nextAnswer (.busRead f) with | .ok b => .bytes b | .err => .err, [r, .nothingStated]⟩]
  mirror : (∀ k, s.phase ≠ .op .readAll k) ∨ s.nextAnswer (.busRead f) = .err → t.mirror = s.mirror
  lines : t.lines = s.lines
  ends : ActionEnds (.busRead f) (fun b => .response (b.b1 ++ b.b2)) s t
  draw : OneDraw s t

/-! ## The mirror a scan builds (42_control_fsm.md R194) -/

/-- The mirror after the responses `rs 0`, …, `rs (n-1)` to the first n requests of read_all. -/
def scanMirror (shift : ReadbackShift) (rs : Nat → Response) (m : Mirror) : Nat → Mirror
  | 0 => m
  | n + 1 => fileResponse shift n (resp16 (rs n)) (scanMirror shift rs m n)

/-- Request k of read_all as an action; past the list's end, the last request. -/
def readAction (k : Nat) : Action := .busRead (encodeReadRequest ((readList[k]?).getD .ofs1))

/-- The trace of the first n requests of read_all, all answered. -/
def scanTrace (rs : Nat → Response) (n : Nat) : List Event :=
  (List.range n).map fun k =>
    ⟨readAction k, .bytes (rs k), [.stageReadBack ((readList[k]?).getD .ofs1), .nothingStated]⟩

/-! ## Which frames an operation emits -/

/-- The frame kinds each host operation emits (40_frame_codec.md R157). -/
def emittedBy : HostOp → Instr → Prop
  | .setCode c t, i => writeInstr .data t c = some i
  | .setVoltage _ t, i => ∃ c, writeInstr .data t c = some i
  | .setGain v, i => i = .wrGainAll v
  | .setOffset v, i => i = .wrOffsetAll v
  | .readAll, i =>
    (∃ g c, i = .rdX1a g c ∨ i = .rdX1b g c ∨ i = .rdC g c ∨ i = .rdM g c) ∨ i = .rdOfs0 ∨ i = .rdOfs1
  | .init, _ => False
  | .reset, _ => False
  | .clear, _ => False
  | .restoreClear, _ => False
  | .setLdac, _ => False
  | .clearLdac, _ => False
  | .getReg, _ => False
  | .getVref, _ => False

/-! ## The invariant -/

/-- The levels that the line drives of a trace leave, from Unknown (10_state.md R34): the last level driven, Unknown after a
drive that failed. -/
def linesOfTrace (tr : List Event) : Lines :=
  tr.foldl
    (fun ls e =>
      match e.action, e.reply with
      | .lineDrive l _, .err => ls.put l .unknown
      | .lineDrive l v, _ => ls.put l (driveLevel v)
      | _, _ => ls)
    ⟨.unknown, .unknown, .unknown⟩

/-- The frame an action gives the transport. -/
def actionFrame : Action → Option Frame
  | .busWrite f => some f
  | .busRead f => some f
  | .lineDrive _ _ => none

/-- A frame of some row of the opcode table: one the decoder recognises (40_frame_codec.md R124). -/
def recognised (f : Frame) : Prop := ∀ m a d, decodeFrame f ≠ .unrecognised m a d

/-- The phase is Idle, or an operation whose checks passed with k of its actions completed (10_state.md R37). -/
def phaseLegal (s : State) : Prop :=
  match s.phase with
  | .idle => True
  | .op o k => operandCheck o = none ∧ k ≤ (actionsOf s.params s.mirror o).length

/-- The invariant of the machine: the lines are what the trace's drives left (10_state.md R34); every action has drawn one
answer (20_memory.md R63); the phase is legal (10_state.md R37); the control byte's reserved bits are 0 (10_state.md R29);
no unused frame was ever sent (30_encoding.md R99). -/
structure State.Inv (s : State) : Prop where
  lines : s.lines = linesOfTrace s.trace
  draws : s.draws = s.trace.length
  phase : phaseLegal s
  control : controlReserved s.mirror = 0#5
  frames : ∀ e ∈ s.trace, ∀ f, actionFrame e.action = some f → recognised f

end Sys2Proof.Machine
end

