-- ==== Sys2Proof/Certificates/Slice0/Obligations.lean ====
section
/-! DEFINITION. The statements for the provers, from the numbered rules of spec/. A docstring that says "the spec's own
choice" names a decision D<n> of spec/92_eei_decisions.md: such a clause is no sentence of the source. -/

open Sys2Proof Sys2Proof.Machine

/-! ## The frame codec -/

/-- The six vectors of NDS (95_test_vectors.md E1 to E6) and one word of each other family decode to their instructions. -/
def Obligations.SampleFramesDecode : Prop :=
  decodeInstr 0xF5A5A5#24 = .ok (.wrDataChx 5 0xA5A5#16) ∧
  decodeInstr 0xA7A5A5#24 = .ok (.wrOffsetCh 3 7 0xA5A5#16) ∧
  decodeInstr 0x67A5A5#24 = .ok (.wrGainCh 3 7 0xA5A5#16) ∧
  decodeInstr 0x0900FF#24 = .ok (.sfSelect 3 0x00FF#16) ∧
  decodeInstr 0x057780#24 = .ok (.rdM 4 7) ∧
  decodeInstr 0x058480#24 = .ok (.rdSelect 3) ∧
  decodeInstr 0x058100#24 = .ok .rdOfs0 ∧
  decodeInstr 0x050D00#24 = .ok (.rdX1a 2 2) ∧
  decodeInstr 0x050001#24 = .ok (.sfReadback 0x0001#16)

/-- 20_memory.md R55: byte 0 holds mode and address, bytes 1 and 2 the data field, most significant byte first, and a
read-back response has the same byte order. With it, the places of the three fields (30_encoding.md section 1). -/
def Obligations.FrameFieldsAndBytes : Prop :=
  (∀ (m : BitVec 2) (a : BitVec 6) (d : Word),
    (Frame.ofFields m a d).toNat = m.toNat * 2 ^ 22 + a.toNat * 2 ^ 16 + d.toNat ∧
    (Frame.ofFields m a d).mode = m ∧ (Frame.ofFields m a d).addr = a ∧ (Frame.ofFields m a d).data = d) ∧
  (∀ w : Frame, Frame.ofFields w.mode w.addr w.data = w ∧ Frame.ofBytes w.byte0 w.byte1 w.byte2 = w ∧
    w.byte0.toNat = w.mode.toNat * 2 ^ 6 + w.addr.toNat ∧
    w.byte1.toNat = w.data.toNat / 256 ∧ w.byte2.toNat = w.data.toNat % 256) ∧
  (∀ r : Response, (resp16 r).toNat = r.b1.toNat * 256 + r.b2.toNat)

/-- 30_encoding.md R91 and R92: the codes of the special functions and the operation each names, the codes of none, and the
dummy frame. -/
def Obligations.SpecialFunctionCodes : Prop :=
  (sfcode .control = 1#6 ∧ sfcode .ofs0 = 2#6 ∧ sfcode .ofs1 = 3#6 ∧ sfcode .readBack = 5#6 ∧
    (∀ g : GroupNo, (sfcode (.select g)).toNat = 6 + g.val) ∧ sfcode .selectAll = 11#6) ∧
  (∀ a d, decodeFrame (Frame.ofFields 0#2 (sfcode a) d) = .special a d ∧
    (a ≠ .readBack → frameReaction (Frame.ofFields 0#2 (sfcode a) d) =
      match a with
      | .control => .writeControl d
      | .ofs0 => .writeOfs0 d
      | .ofs1 => .writeOfs1 d
      | .readBack => .nothingStated
      | .select g => .writeSelect g d
      | .selectAll => .writeSelectAll d)) ∧
  (∀ r, frameReaction (Frame.ofFields 0#2 (sfcode .readBack) (sel r)) = .stageReadBack r) ∧
  (∀ (a : BitVec 6) (d : Word), a = 0#6 ∨ a = 4#6 ∨ 12 ≤ a.toNat →
    (∀ s e, (encodeSpecial s e).addr ≠ a) ∧
    decodeFrame (Frame.ofFields 0#2 a d) = .unrecognised 0#2 a d ∧
    frameReaction (Frame.ofFields 0#2 a d) = .nothingStated) ∧
  dummyFrame = Frame.ofFields 0#2 0#6 0#16 ∧ (∀ f, framesOnBus (.busRead f) = [f, dummyFrame])

/-- 40_frame_codec.md R121 and R122: encode_special on every special function and every u16, and the read request as a
ReadBack frame whose byte 0 is 0x05. -/
def Obligations.SpecialAndReadRequestEncoding : Prop :=
  (∀ (a : SpecialFunctionAddress) (d : Word),
    (encodeSpecial a d).byte0.toNat = (sfcode a).toNat ∧
    (encodeSpecial a d).byte1.toNat = d.toNat / 256 ∧ (encodeSpecial a d).byte2.toNat = d.toNat % 256) ∧
  (∀ r, encodeReadRequest r = encodeSpecial .readBack (sel r) ∧ (encodeReadRequest r).byte0 = 0x05#8)

/-- The channel address codes (30_encoding.md section 2): the code of every well-formed target, codes 6 and 7 of none, and
every other code of exactly one. The codes of AllCh, SingleGroup and ChxExceptGroup0 are the spec's own choice (D3). -/
def Obligations.ChannelCodesPartition : Prop :=
  (chcode .allCh).toNat = 0 ∧
  (∀ g < 5, (chcode (.singleGroup g)).toNat = g + 1) ∧
  (∀ g < 5, ∀ c < 8, (chcode (.singleCh g c)).toNat = (g + 1) * 8 + c) ∧
  (∀ c < 8, (chcode (.chx c)).toNat = 48 + c ∧ (chcode (.chxExceptGroup0 c)).toNat = 56 + c) ∧
  (∀ t, t.wf = true → chcode t ≠ 6#6 ∧ chcode t ≠ 7#6) ∧
  (∀ a : BitVec 6, a ≠ 6#6 → a ≠ 7#6 → ∃ t, (t.wf = true ∧ chcode t = a) ∧ ∀ u, u.wf = true → chcode u = a → u = t)

/-- The read-back selectors (40_frame_codec.md, sel and decode_selector): their values, and decode_selector reads exactly
them. The classes of X1B and C and the numbers of Control and OFS1 are the spec's own choice (D4). -/
def Obligations.SelectorsInvert : Prop :=
  (∀ (g : GroupNo) (c : ChanNo),
    (sel (.x1a g c)).toNat = 0x0000 + 128 * (g.val * 8 + c.val + 8) ∧
    (sel (.x1b g c)).toNat = 0x2000 + 128 * (g.val * 8 + c.val + 8) ∧
    (sel (.c g c)).toNat = 0x4000 + 128 * (g.val * 8 + c.val + 8) ∧
    (sel (.m g c)).toNat = 0x6000 + 128 * (g.val * 8 + c.val + 8) ∧
    (sel (.select g)).toNat = 0x8300 + 0x80 * g.val) ∧
  sel .control = 0x8080#16 ∧ sel .ofs0 = 0x8100#16 ∧ sel .ofs1 = 0x8180#16 ∧
  (∀ (d : Word) (r : ReadBackAddr), decodeSelector d = some r ↔ d = sel r)

/-- The encoders are injective (40_frame_codec.md, codec law 5), and encode_write is defined exactly on its domain. That it
has no value for the mode Special is the spec's own choice (40_frame_codec.md R120, D6; log entry 20). -/
def Obligations.EncodersInjective : Prop :=
  (∀ m t d m' t' d' f, encodeWrite m t d = some f → encodeWrite m' t' d' = some f → m = m' ∧ t = t' ∧ d = d') ∧
  (∀ a d a' d', encodeSpecial a d = encodeSpecial a' d' → a = a' ∧ d = d') ∧
  (∀ r r', sel r = sel r' → r = r') ∧
  (∀ m t d, (∃ f, encodeWrite m t d = some f) ↔ m ≠ .special ∧ t.wf = true)

/-- Decoding the words of a well-formed instruction gives it back under its one name: `sf.readback sel(R)` is `rd R`
(30_encoding.md R103, 40_frame_codec.md codec laws 1 to 3). -/
def Obligations.DecodeEncodeAgree : Prop :=
  ∀ (i : Instr) (rest : List Byte), i.wf = true →
    decodeInstr i.encode = .ok i.canonical ∧ decode (i.encode.bytes ++ rest) = .ok (i.canonical, rest)

/-- Every recognised frame is re-encoded to itself (40_frame_codec.md, codec law 4), and every decoded instruction is well
formed, under its one name, and encodes to its frame. -/
def Obligations.DecodedFramesReencode : Prop :=
  (∀ w, recognised w → encodeDecoded (decodeFrame w) = some w) ∧
  (∀ w i, decodeInstr w = .ok i → i.wf = true ∧ i.canonical = i ∧ i.encode = w)

/-- The frames outside the opcode table, and no others, are Unrecognised, and the verdict carries their three raw fields
(30_encoding.md R99, 40_frame_codec.md section 2.6; the verdict is the spec's own choice, D6). -/
def Obligations.UnusedFramesAreUnrecognised : Prop :=
  ∀ w : Frame,
    (decodeFrame w = .unrecognised w.mode w.addr w.data ↔
      (w.mode ≠ 0#2 ∧ (w.addr = 6#6 ∨ w.addr = 7#6)) ∨
      (w.mode = 0#2 ∧ (w.addr = 0#6 ∨ w.addr = 4#6 ∨ 12 ≤ w.addr.toNat))) ∧
    (∀ m a d, decodeFrame w = .unrecognised m a d → m = w.mode ∧ a = w.addr ∧ d = w.data) ∧
    ((∃ m a d, decodeFrame w = .unrecognised m a d) ↔ ∃ e, decodeInstr w = .error e)

/-! ## The instructions: what each frame does -/

/-- Every Data write completes: one BusWrite of its frame, whatever the state; NDS states that the input registers of the
addressed channels are written (40_frame_codec.md section 2.1). The codes of wrDataAll, wrDataGrp and wrDataChxng0 are the
spec's own choice (D3, log entry 12); what a frame sent by hand returns, in `FrameWritten.ends`, is the model's (log entry
5). -/
def Obligations.DataWritesComplete : Prop :=
  ∀ (s : State) (d : Word) (g : GroupNo) (c : ChanNo),
    (∃ t, exec (.wrDataAll d) s = .next t ∧
      FrameWritten (BitVec.ofNat 24 (0xC00000 + d.toNat)) (.writeInput allChannels d) s t) ∧
    (∃ t, exec (.wrDataGrp g.val d) s = .next t ∧
      FrameWritten (BitVec.ofNat 24 (0xC10000 + 0x10000 * g.val + d.toNat))
        (.writeInput (allChans.map fun c => (g, c)) d) s t) ∧
    (∃ t, exec (.wrDataCh g.val c.val d) s = .next t ∧
      FrameWritten (BitVec.ofNat 24 (0xC80000 + 0x80000 * g.val + 0x10000 * c.val + d.toNat))
        (.writeInput [(g, c)] d) s t) ∧
    (∃ t, exec (.wrDataChx c.val d) s = .next t ∧
      FrameWritten (BitVec.ofNat 24 (0xF00000 + 0x10000 * c.val + d.toNat))
        (.writeInput [(0, c), (1, c), (2, c), (3, c), (4, c)] d) s t) ∧
    (∃ t, exec (.wrDataChxng0 c.val d) s = .next t ∧
      FrameWritten (BitVec.ofNat 24 (0xF80000 + 0x10000 * c.val + d.toNat))
        (.writeInput [(1, c), (2, c), (3, c), (4, c)] d) s t)

/-- Every Offset write completes, as the Data writes do, on the offset-trim registers (40_frame_codec.md section 2.2). The
codes of wrOffsetAll, wrOffsetGrp and wrOffsetChxng0 are the spec's own choice (D3, log entry 12); what a frame sent by
hand returns is the model's (log entry 5). -/
def Obligations.OffsetWritesComplete : Prop :=
  ∀ (s : State) (d : Word) (g : GroupNo) (c : ChanNo),
    (∃ t, exec (.wrOffsetAll d) s = .next t ∧
      FrameWritten (BitVec.ofNat 24 (0x800000 + d.toNat)) (.writeOffsetTrim allChannels d) s t) ∧
    (∃ t, exec (.wrOffsetGrp g.val d) s = .next t ∧
      FrameWritten (BitVec.ofNat 24 (0x810000 + 0x10000 * g.val + d.toNat))
        (.writeOffsetTrim (allChans.map fun c => (g, c)) d) s t) ∧
    (∃ t, exec (.wrOffsetCh g.val c.val d) s = .next t ∧
      FrameWritten (BitVec.ofNat 24 (0x880000 + 0x80000 * g.val + 0x10000 * c.val + d.toNat))
        (.writeOffsetTrim [(g, c)] d) s t) ∧
    (∃ t, exec (.wrOffsetChx c.val d) s = .next t ∧
      FrameWritten (BitVec.ofNat 24 (0xB00000 + 0x10000 * c.val + d.toNat))
        (.writeOffsetTrim [(0, c), (1, c), (2, c), (3, c), (4, c)] d) s t) ∧
    (∃ t, exec (.wrOffsetChxng0 c.val d) s = .next t ∧
      FrameWritten (BitVec.ofNat 24 (0xB80000 + 0x10000 * c.val + d.toNat))
        (.writeOffsetTrim [(1, c), (2, c), (3, c), (4, c)] d) s t)

/-- Every Gain write completes, as the Data writes do, on the gain-trim registers (40_frame_codec.md section 2.3). The codes
of wrGainAll, wrGainGrp and wrGainChxng0 are the spec's own choice (D3, log entry 12); what a frame sent by hand returns is
the model's (log entry 5). -/
def Obligations.GainWritesComplete : Prop :=
  ∀ (s : State) (d : Word) (g : GroupNo) (c : ChanNo),
    (∃ t, exec (.wrGainAll d) s = .next t ∧
      FrameWritten (BitVec.ofNat 24 (0x400000 + d.toNat)) (.writeGainTrim allChannels d) s t) ∧
    (∃ t, exec (.wrGainGrp g.val d) s = .next t ∧
      FrameWritten (BitVec.ofNat 24 (0x410000 + 0x10000 * g.val + d.toNat))
        (.writeGainTrim (allChans.map fun c => (g, c)) d) s t) ∧
    (∃ t, exec (.wrGainCh g.val c.val d) s = .next t ∧
      FrameWritten (BitVec.ofNat 24 (0x480000 + 0x80000 * g.val + 0x10000 * c.val + d.toNat))
        (.writeGainTrim [(g, c)] d) s t) ∧
    (∃ t, exec (.wrGainChx c.val d) s = .next t ∧
      FrameWritten (BitVec.ofNat 24 (0x700000 + 0x10000 * c.val + d.toNat))
        (.writeGainTrim [(0, c), (1, c), (2, c), (3, c), (4, c)] d) s t) ∧
    (∃ t, exec (.wrGainChxng0 c.val d) s = .next t ∧
      FrameWritten (BitVec.ofNat 24 (0x780000 + 0x10000 * c.val + d.toNat))
        (.writeGainTrim [(1, c), (2, c), (3, c), (4, c)] d) s t)

/-- Every special-function write completes: one BusWrite of its frame, data unmasked (40_frame_codec.md section 2.4). No
host operation sends these frames; what one sent by hand returns is the model's choice (log entry 5). -/
def Obligations.SpecialWritesComplete : Prop :=
  ∀ (s : State) (d : Word) (g : GroupNo),
    (∃ t, exec (.sfControl d) s = .next t ∧
      FrameWritten (BitVec.ofNat 24 (0x010000 + d.toNat)) (.writeControl d) s t) ∧
    (∃ t, exec (.sfOfs0 d) s = .next t ∧
      FrameWritten (BitVec.ofNat 24 (0x020000 + d.toNat)) (.writeOfs0 d) s t) ∧
    (∃ t, exec (.sfOfs1 d) s = .next t ∧
      FrameWritten (BitVec.ofNat 24 (0x030000 + d.toNat)) (.writeOfs1 d) s t) ∧
    (∃ t, exec (.sfSelect g d) s = .next t ∧
      FrameWritten (BitVec.ofNat 24 (0x060000 + 0x10000 * g.val + d.toNat)) (.writeSelect g d) s t) ∧
    (∃ t, exec (.sfSelectAll d) s = .next t ∧
      FrameWritten (BitVec.ofNat 24 (0x0B0000 + d.toNat)) (.writeSelectAll d) s t)

/-- Every read-back request completes: one BusRead of its frame, which stages the register its selector names
(40_frame_codec.md section 2.5). That a frame sent by hand goes out in a BusRead and returns the response is the model's
choice (log entries 4 and 5); four selectors are the spec's own choice (D4). -/
def Obligations.ReadbackRequestsComplete : Prop :=
  ∀ (s : State) (d : Word) (g : GroupNo) (c : ChanNo),
    (∃ t, exec (.sfReadback d) s = .next t ∧
      FrameRequested (BitVec.ofNat 24 (0x050000 + d.toNat))
        (match decodeSelector d with | some r => .stageReadBack r | none => .nothingStated) s t) ∧
    (∃ t, exec (.rdX1a g c) s = .next t ∧
      FrameRequested (BitVec.ofNat 24 (0x050400 + 0x80 * (8 * g.val + c.val))) (.stageReadBack (.x1a g c)) s t) ∧
    (∃ t, exec (.rdX1b g c) s = .next t ∧
      FrameRequested (BitVec.ofNat 24 (0x052400 + 0x80 * (8 * g.val + c.val))) (.stageReadBack (.x1b g c)) s t) ∧
    (∃ t, exec (.rdC g c) s = .next t ∧
      FrameRequested (BitVec.ofNat 24 (0x054400 + 0x80 * (8 * g.val + c.val))) (.stageReadBack (.c g c)) s t) ∧
    (∃ t, exec (.rdM g c) s = .next t ∧
      FrameRequested (BitVec.ofNat 24 (0x056400 + 0x80 * (8 * g.val + c.val))) (.stageReadBack (.m g c)) s t) ∧
    (∃ t, exec .rdControl s = .next t ∧ FrameRequested 0x058080#24 (.stageReadBack .control) s t) ∧
    (∃ t, exec .rdOfs0 s = .next t ∧ FrameRequested 0x058100#24 (.stageReadBack .ofs0) s t) ∧
    (∃ t, exec .rdOfs1 s = .next t ∧ FrameRequested 0x058180#24 (.stageReadBack .ofs1) s t) ∧
    (∃ t, exec (.rdSelect g) s = .next t ∧
      FrameRequested (BitVec.ofNat 24 (0x058300 + 0x80 * g.val)) (.stageReadBack (.select g)) s t)

/-- A write frame whose group or channel is out of range ends with General and has no other effect
(42_control_fsm.md R181, 40_frame_codec.md R128 and R129; the check is the spec's own choice, D5). R181 speaks of set_code
and set_voltage only: that exec of a malformed frame built by hand, Offset and Gain frames among them, ends so is the
model's inference (log entry 10). -/
def Obligations.OutOfRangeWriteRaisesGeneral : Prop :=
  ∀ (i : Instr) (s : State), i.wf = false →
    exec i s = .next { s with phase := .idle, results := s.results ++ [.general .addressOutOfRange] }

/-- The frame of every instruction (40_frame_codec.md: "Block state written: none"): whatever exec answers, it leaves the
lines, the control and select bytes and every input of the machine alone, and the mirror too outside read_all. -/
def Obligations.InstructionsKeepBlockState : Prop :=
  ∀ (i : Instr) (s t : State), exec i s = .next t →
    t.lines = s.lines ∧ t.mirror.control = s.mirror.control ∧ t.mirror.select = s.mirror.select ∧
    t.params = s.params ∧ t.busy = s.busy ∧ t.executorHoldsLock = s.executorHoldsLock ∧
    t.hostCalls = s.hostCalls ∧ t.executorCalls = s.executorCalls ∧
    ((∀ k, s.phase ≠ .op .readAll k) → t.mirror = s.mirror)

/-- 30_encoding.md R103: a pseudo-instruction has the words of what it expands to, and runs as it. -/
def Obligations.PseudoInstructionsExpand : Prop :=
  (∀ r : ReadBackAddr, r.request.encode = (Instr.sfReadback (sel r)).encode) ∧
  (∀ r s, exec r.request s = exec (.sfReadback (sel r)) s) ∧ (∀ i s, exec i.canonical s = exec i s)

/-! ## One step -/

/-- A step runs the decoded instruction: a frame sent by hand is taken from the waiting calls, decoded and executed
(log entry 6), and so is a table word placed by withFetchWord. -/
def Obligations.StepRunsDecodedFrame : Prop :=
  (∀ s w rest i, s.Ready (.frame w) rest → decodeInstr w = .ok i → step s = exec i { s with hostCalls := rest }) ∧
  (∀ (s : State) nbits w i, decodeTableWord nbits w = some i →
    step (s.withFetchWord nbits w) = exec i { s with phase := .idle, executorHoldsLock := false })

/-- Every step answers a next state, but for one case: a frame sent by hand that no row of the table matches is refused by
name with its raw fields (40_frame_codec.md section 2.6; the spec's own choice, D6). -/
def Obligations.StepAnswersUnlessUnrecognised : Prop :=
  ∀ s : State,
    ((∃ t, step s = .next t) ∧ ∀ w rest, s.Ready (.frame w) rest → recognised w) ∨
    (∃ w rest, s.Ready (.frame w) rest ∧ decodeFrame w = .unrecognised w.mode w.addr w.data ∧
      step s = .refused (.unrecognisedFrame w.mode w.addr w.data))

/-- Every frame an operation in progress sends is an instruction of the kinds the spec says the operation emits, and the
step that sends it is that instruction's meaning (40_frame_codec.md R157). For the rd frames of read_all this rests on the
model's inference that exec sends them in a BusRead (log entry 4). -/
def Obligations.OperationFramesAreInstructions : Prop :=
  ∀ s o k a f, s.phase = .op o k → operandCheck o = none →
    (actionsOf s.params s.mirror o)[k]? = some a → actionFrame a = some f →
    ∃ i, decodeInstr f = .ok i ∧ emittedBy o i ∧ step s = exec i s

/-- A LineDrive sets its line to the level driven, or to Unknown where it failed, and moves nothing else of the block
(20_memory.md section 3; Unknown is the spec's own choice, D26). -/
def Obligations.LineDriveSetsItsLine : Prop :=
  ∀ (s : State) (l : Line) (v : Drive),
    (∀ r, s.nextAnswer (.lineDrive l v) = .ok r → (perform (.lineDrive l v) s).lines.get l = driveLevel v) ∧
    (s.nextAnswer (.lineDrive l v) = .err → (perform (.lineDrive l v) s).lines.get l = .unknown) ∧
    (∀ k, k ≠ l → (perform (.lineDrive l v) s).lines.get k = s.lines.get k) ∧
    (perform (.lineDrive l v) s).mirror = s.mirror

/-! ## Host operations -/

/-- 20_memory.md R65: a host operation whose checks pass issues exactly its actions, in their order, each only after the one
before it yielded Ok, and returns; or it stops at its first failed action with HardwareIO, having issued none after it. -/
def Obligations.OperationRunsItsActions : Prop :=
  ∀ s o rest, s.Ready (.op o) rest → operandCheck o = none →
    ((∀ k a, (actionsOf s.params s.mirror o)[k]? = some a → ∃ r, s.answerAt k a = .ok r) →
      ∃ t, StepsTo ((actionsOf s.params s.mirror o).length + 2) s t ∧ t.phase = .idle ∧ t.hostCalls = rest ∧
        t.trace.map (·.action) = s.trace.map (·.action) ++ actionsOf s.params s.mirror o ∧
        t.results = s.results ++ [.ok (returnValue s.params s.mirror o)]) ∧
    (∀ j a, (actionsOf s.params s.mirror o)[j]? = some a → s.answerAt j a = .err →
      (∀ k b, k < j → (actionsOf s.params s.mirror o)[k]? = some b → ∃ r, s.answerAt k b = .ok r) →
      ∃ t, StepsTo (j + 2) s t ∧ t.phase = .idle ∧ t.hostCalls = rest ∧
        t.trace.map (·.action) = s.trace.map (·.action) ++ (actionsOf s.params s.mirror o).take (j + 1) ∧
        t.results = s.results ++ [.hardwareIO a j])

/-- 42_control_fsm.md R186 and R187: set_ldac drives LDAC High and clear_ldac drives it Low; a failed drive leaves it
Unknown and returns HardwareIO. The whole state after each. -/
def Obligations.LdacOperations : Prop :=
  ∀ s rest,
    (s.Ready (.op .setLdac) rest →
      (∀ r, s.nextAnswer (.lineDrive .ldac .high) = .ok r →
        StepsTo 3 s
          { s with hostCalls := rest, answers := s.answers.tail, draws := s.draws + 1
                   lines := { s.lines with ldac := .high }
                   trace := s.trace ++ [⟨.lineDrive .ldac .high, .ok, [.nothingStated]⟩]
                   results := s.results ++ [.ok .unit] }) ∧
      (s.nextAnswer (.lineDrive .ldac .high) = .err →
        StepsTo 2 s
          { s with hostCalls := rest, answers := s.answers.tail, draws := s.draws + 1
                   lines := { s.lines with ldac := .unknown }
                   trace := s.trace ++ [⟨.lineDrive .ldac .high, .err, [.nothingStated]⟩]
                   results := s.results ++ [.hardwareIO (.lineDrive .ldac .high) 0] })) ∧
    (s.Ready (.op .clearLdac) rest →
      (∀ r, s.nextAnswer (.lineDrive .ldac .low) = .ok r →
        StepsTo 3 s
          { s with hostCalls := rest, answers := s.answers.tail, draws := s.draws + 1
                   lines := { s.lines with ldac := .low }
                   trace := s.trace ++ [⟨.lineDrive .ldac .low, .ok, [.loadActive]⟩]
                   results := s.results ++ [.ok .unit] }) ∧
      (s.nextAnswer (.lineDrive .ldac .low) = .err →
        StepsTo 2 s
          { s with hostCalls := rest, answers := s.answers.tail, draws := s.draws + 1
                   lines := { s.lines with ldac := .unknown }
                   trace := s.trace ++ [⟨.lineDrive .ldac .low, .err, [.loadActive]⟩]
                   results := s.results ++ [.hardwareIO (.lineDrive .ldac .low) 0] }))

/-- clear drives CLR Low and restore_clear drives it High (42_control_fsm.md section 2; CLR's polarity is the spec's own
choice, D12). A failed drive leaves CLR Unknown. The mirror is not written. -/
def Obligations.ClearOperations : Prop :=
  ∀ s rest o v, (o = .clear ∧ v = Drive.low) ∨ (o = .restoreClear ∧ v = Drive.high) → s.Ready (.op o) rest →
    (∀ r, s.nextAnswer (.lineDrive .clr v) = .ok r →
      StepsTo 3 s
        { s with hostCalls := rest, answers := s.answers.tail, draws := s.draws + 1
                 lines := { s.lines with clr := driveLevel v }
                 trace := s.trace ++ [⟨.lineDrive .clr v, .ok, [lineReaction s.lines .clr v]⟩]
                 results := s.results ++ [.ok .unit] }) ∧
    (s.nextAnswer (.lineDrive .clr v) = .err →
      StepsTo 2 s
        { s with hostCalls := rest, answers := s.answers.tail, draws := s.draws + 1
                 lines := { s.lines with clr := .unknown }
                 trace := s.trace ++ [⟨.lineDrive .clr v, .err, [lineReaction s.lines .clr v]⟩]
                 results := s.results ++ [.hardwareIO (.lineDrive .clr v) 0] })

/-- reset pulses RESET Low then High, on whose rising edge NDS states the DAC reloads its defaults; the mirror is not
written (42_control_fsm.md section 2; the spec's own choice, D15 and D21). -/
def Obligations.ResetPulsesLine : Prop :=
  ∀ s rest, s.Ready (.op .reset) rest →
    (s.answerAt 0 (.lineDrive .reset .low) = .err →
      StepsTo 2 s
        { s with hostCalls := rest, answers := s.answers.tail, draws := s.draws + 1
                 lines := { s.lines with reset := .unknown }
                 trace := s.trace ++ [⟨.lineDrive .reset .low, .err, [.nothingStated]⟩]
                 results := s.results ++ [.hardwareIO (.lineDrive .reset .low) 0] }) ∧
    (∀ r r', s.answerAt 0 (.lineDrive .reset .low) = .ok r → s.answerAt 1 (.lineDrive .reset .high) = .ok r' →
      StepsTo 4 s
        { s with hostCalls := rest, answers := s.answers.drop 2, draws := s.draws + 2
                 lines := { s.lines with reset := .high }
                 trace := s.trace ++ [⟨.lineDrive .reset .low, .ok, [.nothingStated]⟩,
                   ⟨.lineDrive .reset .high, .ok, [.reloadDefaults]⟩]
                 results := s.results ++ [.ok .unit] }) ∧
    (∀ r, s.answerAt 0 (.lineDrive .reset .low) = .ok r → s.answerAt 1 (.lineDrive .reset .high) = .err →
      StepsTo 3 s
        { s with hostCalls := rest, answers := s.answers.drop 2, draws := s.draws + 2
                 lines := { s.lines with reset := .unknown }
                 trace := s.trace ++ [⟨.lineDrive .reset .low, .ok, [.nothingStated]⟩,
                   ⟨.lineDrive .reset .high, .err, [.reloadDefaults]⟩]
                 results := s.results ++ [.hardwareIO (.lineDrive .reset .high) 1] })

/-- init drives RESET High, CLR High and then LDAC_INIT_SEQ; where every drive succeeds, RESET and CLR read High and LDAC
reads the last of the sequence, or what it read before; a failed drive, at whichever k, returns HardwareIO with that k and
leaves its line Unknown, the lines before it High and those after it alone (42_control_fsm.md section 2; the order is the
spec's own choice, D13 and D14). -/
def Obligations.InitDrivesLines : Prop :=
  ∀ s rest, s.Ready (.op .init) rest →
    ((∀ k a, (actionsOf s.params s.mirror .init)[k]? = some a → ∃ r, s.answerAt k a = .ok r) →
      ∃ t, StepsTo ((ldacDrives s.params.ldacInitSeq).length + 4) s t ∧ t.phase = .idle ∧ t.mirror = s.mirror ∧
        t.results = s.results ++ [.ok .unit] ∧
        t.trace.map (·.action) = s.trace.map (·.action) ++
          [.lineDrive .reset .high, .lineDrive .clr .high] ++
          (ldacDrives s.params.ldacInitSeq).map (fun v => .lineDrive .ldac v) ∧
        t.lines.reset = .high ∧ t.lines.clr = .high ∧
        t.lines.ldac = match s.params.ldacInitSeq with
          | .none => s.lines.ldac
          | .high => .high
          | .low => .low
          | .lowHigh => .high
          | .highLow => .low) ∧
    (s.answerAt 0 (.lineDrive .reset .high) = .err →
      ∃ t, StepsTo 2 s t ∧ t.phase = .idle ∧ t.mirror = s.mirror ∧ t.lines = { s.lines with reset := .unknown } ∧
        t.results = s.results ++ [.hardwareIO (.lineDrive .reset .high) 0]) ∧
    (∀ r, s.answerAt 0 (.lineDrive .reset .high) = .ok r → s.answerAt 1 (.lineDrive .clr .high) = .err →
      ∃ t, StepsTo 3 s t ∧ t.phase = .idle ∧ t.mirror = s.mirror ∧
        t.lines = { s.lines with reset := .high, clr := .unknown } ∧
        t.results = s.results ++ [.hardwareIO (.lineDrive .clr .high) 1]) ∧
    (∀ j v, (ldacDrives s.params.ldacInitSeq)[j]? = some v →
      (∀ k a, k < 2 + j → (actionsOf s.params s.mirror .init)[k]? = some a → ∃ r, s.answerAt k a = .ok r) →
      s.answerAt (2 + j) (.lineDrive .ldac v) = .err →
      ∃ t, StepsTo (j + 4) s t ∧ t.phase = .idle ∧ t.mirror = s.mirror ∧ t.lines = ⟨.high, .high, .unknown⟩ ∧
        t.results = s.results ++ [.hardwareIO (.lineDrive .ldac v) (2 + j)])

/-- set_code sends its code, unmasked, in one Data frame to its target, and writes no block state; a malformed target is
refused with General and no action; a failed write returns HardwareIO (42_control_fsm.md section 3; the check is the spec's
own choice, D5, and so are three of the target codes, D3). -/
def Obligations.SetCodeSendsOneDataFrame : Prop :=
  ∀ s rest code t, s.Ready (.op (.setCode code t)) rest →
    (t.wf = false →
      StepsTo 1 s { s with hostCalls := rest, results := s.results ++ [.general .addressOutOfRange] }) ∧
    (t.wf = true → ∃ f, f.mode = 3#2 ∧ f.addr = chcode t ∧ f.data = code ∧
      (∀ r, s.nextAnswer (.busWrite f) = .ok r →
        StepsTo 3 s
          { s with hostCalls := rest, answers := s.answers.tail, draws := s.draws + 1
                   trace := s.trace ++ [⟨.busWrite f, .ok, [.writeInput (addressed t) code]⟩]
                   results := s.results ++ [.ok .unit] }) ∧
      (s.nextAnswer (.busWrite f) = .err →
        StepsTo 2 s
          { s with hostCalls := rest, answers := s.answers.tail, draws := s.draws + 1
                   trace := s.trace ++ [⟨.busWrite f, .err, [.writeInput (addressed t) code]⟩]
                   results := s.results ++ [.hardwareIO (.busWrite f) 0] }))

/-- set_voltage: the checks in their order, then one Data frame with voltage_to_code of the voltage and the representative
pair's trims, under either VTC_ARITH (Binary64AgreesWithinError says what binary64 leaves of it); under exact it is the
formula's value, rounded and reduced mod 65536 (42_control_fsm.md section 3, 41_transfer_function.md sections 1 and 3; the
spec's own choice, D5, D7, D20, D28, three of the target codes, D3, and the wrap of a negative value, D9, log entry 16).
The mirror is not written. -/
def Obligations.SetVoltageConvertsAndSends : Prop :=
  ∀ s rest v t, s.Ready (.op (.setVoltage v t)) rest →
    (t.wf = false →
      StepsTo 1 s { s with hostCalls := rest, results := s.results ++ [.general .addressOutOfRange] }) ∧
    (t.wf = true → finiteVoltage v = none →
      StepsTo 1 s { s with hostCalls := rest, results := s.results ++ [.general .nonFiniteVoltage] }) ∧
    (∀ q, t.wf = true → finiteVoltage v = some q →
      ∃ g c code f, rep t = some (g, c) ∧ f.mode = 3#2 ∧ f.addr = chcode t ∧ f.data = code ∧
        code = voltageToCode s.params s.mirror q g c ∧
        (s.params.vtcArith = .exact →
          code = BitVec.ofInt 16 (roundRat s.params.roundTies
            ((q * 65536 / (4 * voltsValue s.params.vref) +
              (4 * ((if g = 0 then s.mirror.ofs0 else s.mirror.ofs1).toNat : Rat) + 32768 -
                ((s.mirror.c[chIdx g c]).toNat : Rat))) *
              (65536 / (((s.mirror.m[chIdx g c]).toNat : Rat) + 1))))) ∧
        (∀ r, s.nextAnswer (.busWrite f) = .ok r →
          StepsTo 3 s
            { s with hostCalls := rest, answers := s.answers.tail, draws := s.draws + 1
                     trace := s.trace ++ [⟨.busWrite f, .ok, [.writeInput (addressed t) code]⟩]
                     results := s.results ++ [.ok .unit] }) ∧
        (s.nextAnswer (.busWrite f) = .err →
          StepsTo 2 s
            { s with hostCalls := rest, answers := s.answers.tail, draws := s.draws + 1
                     trace := s.trace ++ [⟨.busWrite f, .err, [.writeInput (addressed t) code]⟩]
                     results := s.results ++ [.hardwareIO (.busWrite f) 0] }))

/-- set_gain and set_offset send their value, unmasked, to all channels, and do not update the mirror
(42_control_fsm.md section 3; the spec's own choice, D3, D20 and D24). -/
def Obligations.SetGainAndOffsetBroadcast : Prop :=
  ∀ s rest o value f re,
    (o = .setGain value ∧ f = BitVec.ofNat 24 (0x400000 + value.toNat) ∧ re = .writeGainTrim allChannels value) ∨
    (o = .setOffset value ∧ f = BitVec.ofNat 24 (0x800000 + value.toNat) ∧ re = .writeOffsetTrim allChannels value) →
    s.Ready (.op o) rest →
    (∀ r, s.nextAnswer (.busWrite f) = .ok r →
      StepsTo 3 s
        { s with hostCalls := rest, answers := s.answers.tail, draws := s.draws + 1
                 trace := s.trace ++ [⟨.busWrite f, .ok, [re]⟩]
                 results := s.results ++ [.ok .unit] }) ∧
    (s.nextAnswer (.busWrite f) = .err →
      StepsTo 2 s
        { s with hostCalls := rest, answers := s.answers.tail, draws := s.draws + 1
                 trace := s.trace ++ [⟨.busWrite f, .err, [re]⟩]
                 results := s.results ++ [.hardwareIO (.busWrite f) 0] })

/-- 42_control_fsm.md R197: get_vref returns VREF, issues no action, writes no state and never fails. -/
def Obligations.GetVrefReturnsParameter : Prop :=
  ∀ s rest, s.Ready (.op .getVref) rest →
    StepsTo 2 s { s with hostCalls := rest, results := s.results ++ [.ok (.vref s.params.vref)] }

/-- get_reg returns a copy of the whole mirror, issues no action, writes no state and never fails (42_control_fsm.md
section 5; a copy is the spec's own choice, D31). -/
def Obligations.GetRegReturnsMirror : Prop :=
  ∀ s rest, s.Ready (.op .getReg) rest →
    StepsTo 2 s { s with hostCalls := rest, results := s.results ++ [.ok (.mirror s.mirror)] }

/-! ## The read-back scan -/

/-- read_all's list of requests (42_control_fsm.md section 4): 163, of which number 4*(8g+c) + j is the class j register of
channel (g, c), then OFS0, then OFS1 twice. The order of the pairs is the spec's own choice (D18). -/
def Obligations.ScanRequestList : Prop :=
  readList.length = 163 ∧
  (∀ (g : GroupNo) (c : ChanNo),
    readList[4 * (8 * g.val + c.val)]? = some (.x1a g c) ∧
    readList[4 * (8 * g.val + c.val) + 1]? = some (.x1b g c) ∧
    readList[4 * (8 * g.val + c.val) + 2]? = some (.c g c) ∧
    readList[4 * (8 * g.val + c.val) + 3]? = some (.m g c)) ∧
  readList[160]? = some .ofs0 ∧ readList[161]? = some .ofs1 ∧ readList[162]? = some .ofs1

/-- Where the first n responses of a scan stand in the mirror, for both values of READBACK_SHIFT, and that the control and
select bytes are not touched (42_control_fsm.md section 4; the spec's own choice, D17, D18 and D19). -/
def Obligations.ScanFilesEachResponse : Prop :=
  ∀ (sh : ReadbackShift) (rs : Nat → Response) (m : Mirror) (n δ : Nat), n ≤ 163 →
    (sh = .zero ∧ δ = 0) ∨ (sh = .one ∧ δ = 1) →
    (∀ (g : GroupNo) (c : ChanNo),
      (scanMirror sh rs m n).x1a[chIdx g c] =
        (if 4 * (8 * g.val + c.val) + δ < n
          then (resp16 (rs (4 * (8 * g.val + c.val) + δ))).setWidth 14 else m.x1a[chIdx g c]) ∧
      (scanMirror sh rs m n).x1b[chIdx g c] =
        (if 4 * (8 * g.val + c.val) + 1 + δ < n
          then (resp16 (rs (4 * (8 * g.val + c.val) + 1 + δ))).setWidth 14 else m.x1b[chIdx g c]) ∧
      (scanMirror sh rs m n).c[chIdx g c] =
        (if 4 * (8 * g.val + c.val) + 2 + δ < n
          then (resp16 (rs (4 * (8 * g.val + c.val) + 2 + δ))).setWidth 14 else m.c[chIdx g c]) ∧
      (scanMirror sh rs m n).m[chIdx g c] =
        (if 4 * (8 * g.val + c.val) + 3 + δ < n
          then (resp16 (rs (4 * (8 * g.val + c.val) + 3 + δ))).setWidth 14 else m.m[chIdx g c])) ∧
    (scanMirror sh rs m n).ofs0 = (if 160 + δ < n then resp16 (rs (160 + δ)) else m.ofs0) ∧
    (scanMirror sh rs m n).ofs1 =
      (if 162 < n then resp16 (rs 162) else if 161 + δ < n then resp16 (rs (161 + δ)) else m.ofs1) ∧
    (scanMirror sh rs m n).control = m.control ∧ (scanMirror sh rs m n).select = m.select

/-- A read_all that every read answers runs its 163 requests and returns; the mirror is the scan's (42_control_fsm.md
section 4). -/
def Obligations.ReadAllRefreshesMirror : Prop :=
  ∀ s rest (rs : Nat → Response), s.Ready (.op .readAll) rest →
    (∀ k < 163, s.answerAt k (readAction k) = .ok (rs k)) →
    StepsTo 165 s
      { s with hostCalls := rest, answers := s.answers.drop 163, draws := s.draws + 163
               mirror := scanMirror s.params.readbackShift rs s.mirror 163
               trace := s.trace ++ scanTrace rs 163
               results := s.results ++ [.ok .unit] }

/-- A read of read_all that fails stops the scan at once with HardwareIO; what the requests before it stored stays, the rest
keeps its old value, and nothing is rolled back. A failure at k = 0 writes nothing; with READBACK_SHIFT = 1 a failure at
k = 162 leaves ofs1 unrefreshed, OFS0 and every channel entry refreshed (42_control_fsm.md section 4; the order and the
filing are the spec's own choice, D17 to D19). -/
def Obligations.ReadAllFailureKeepsPartialMirror : Prop :=
  (∀ s rest (rs : Nat → Response) (k : Nat), s.Ready (.op .readAll) rest → k < 163 →
    (∀ j < k, s.answerAt j (readAction j) = .ok (rs j)) → s.answerAt k (readAction k) = .err →
    StepsTo (k + 2) s
      { s with hostCalls := rest, answers := s.answers.drop (k + 1), draws := s.draws + (k + 1)
               mirror := scanMirror s.params.readbackShift rs s.mirror k
               trace := s.trace ++ scanTrace rs k ++
                 [⟨readAction k, .err, [.stageReadBack ((readList[k]?).getD .ofs1), .nothingStated]⟩]
               results := s.results ++ [.hardwareIO (readAction k) k] }) ∧
  (∀ sh rs m, scanMirror sh rs m 0 = m) ∧
  (∀ rs m, (scanMirror .one rs m 162).ofs1 = m.ofs1 ∧ (scanMirror .one rs m 162).ofs0 = resp16 (rs 161) ∧
    ∀ (g : GroupNo) (c : ChanNo),
      (scanMirror .one rs m 162).x1a[chIdx g c] = (resp16 (rs (4 * (8 * g.val + c.val) + 1))).setWidth 14 ∧
      (scanMirror .one rs m 162).x1b[chIdx g c] = (resp16 (rs (4 * (8 * g.val + c.val) + 2))).setWidth 14 ∧
      (scanMirror .one rs m 162).c[chIdx g c] = (resp16 (rs (4 * (8 * g.val + c.val) + 3))).setWidth 14 ∧
      (scanMirror .one rs m 162).m[chIdx g c] = (resp16 (rs (4 * (8 * g.val + c.val) + 4))).setWidth 14)

/-! ## Addresses and the converter -/

/-- 20_memory.md R51: the channels of each ChannelAddress, and how many. -/
def Obligations.AddressedChannelSets : Prop :=
  (∀ p, p ∈ addressed .allCh) ∧ (addressed .allCh).length = 40 ∧
  (∀ (g : GroupNo) (p : GroupNo × ChanNo), p ∈ addressed (.singleGroup g.val) ↔ p.1 = g) ∧
  (∀ g : GroupNo, (addressed (.singleGroup g.val)).length = 8) ∧
  (∀ (g : GroupNo) (c : ChanNo), addressed (.singleCh g.val c.val) = [(g, c)]) ∧
  (∀ (c : ChanNo) (p : GroupNo × ChanNo), p ∈ addressed (.chx c.val) ↔ p.2 = c) ∧
  (∀ c : ChanNo, (addressed (.chx c.val)).length = 5) ∧
  (∀ (c : ChanNo) (p : GroupNo × ChanNo), p ∈ addressed (.chxExceptGroup0 c.val) ↔ p.2 = c ∧ p.1 ≠ 0) ∧
  (∀ c : ChanNo, (addressed (.chxExceptGroup0 c.val)).length = 4)

/-- 41_transfer_function.md R166: the representative pair of each target, one of the channels it addresses. -/
def Obligations.RepresentativePairs : Prop :=
  rep .allCh = some (0, 0) ∧
  (∀ (g : GroupNo) (c : ChanNo), rep (.singleCh g.val c.val) = some (g, c)) ∧
  (∀ g : GroupNo, rep (.singleGroup g.val) = some (g, 0)) ∧
  (∀ c : ChanNo, rep (.chx c.val) = some (0, c)) ∧
  (∀ c : ChanNo, rep (.chxExceptGroup0 c.val) = some (1, c)) ∧
  (∀ t, t.wf = true → ∃ p, rep t = some p ∧ p ∈ addressed t)

/-- 41_transfer_function.md R161: OFS0 serves group 0 and OFS1 the others. -/
def Obligations.SpanOffsetByGroup : Prop :=
  ∀ (m : Mirror) (g : GroupNo), (g = 0 → spanOffset m g = m.ofs0) ∧ (g ≠ 0 → spanOffset m g = m.ofs1)

/-- The rounding is to the nearest integer, ties by ROUND_TIES, and the wrap is the remainder mod 65536, for every integer
(41_transfer_function.md section 1; the spec's own choice, D8 and D9). -/
def Obligations.RoundAndWrap : Prop :=
  (∀ ties (x : Rat), |x - (roundRat ties x : Rat)| ≤ 1 / 2) ∧
  (∀ k : Int, roundRat .away ((k : Rat) + 1 / 2) = (if 0 ≤ k then k + 1 else k) ∧
    roundRat .even ((k : Rat) + 1 / 2) = (if k % 2 = 0 then k else k + 1)) ∧
  (∀ n : Int, ((wrapCode n).toNat : Int) = n % 65536)

/-- X increases strictly with the voltage, and the rounded value before the wrap never decreases with it
(41_transfer_function.md section 3, laws 3 and 4; 90_conflicts.md C4: of the wrapped code nothing of the kind is claimed). -/
def Obligations.UnwrappedValueMonotone : Prop :=
  (∀ (v v' : Rat) (vr : Volts) (ofs c m : Nat), v < v' →
    unrounded v (voltsValue vr) ofs c m < unrounded v' (voltsValue vr) ofs c m) ∧
  (∀ ties (x y : Rat), x ≤ y → roundRat ties x ≤ roundRat ties y)

/-- Under VTC_ARITH exact the code repeats with period 4*VREF*(m+1)/65536 volts (41_transfer_function.md section 3, law 5),
with ties to even, and with ties away from zero unless X is a half-integer between -65536 and 0. (There the law as the spec
writes it fails, since X and X + 65536 have opposite signs and their ties go opposite ways: NOTES.md.) -/
def Obligations.ConverterPeriod : Prop :=
  ∀ (p : Params) (mi : Mirror) (v : Rat) (g : GroupNo) (c : ChanNo), p.vtcArith = .exact →
    (p.roundTies = .even ∨ ∀ k : Int, -65536 ≤ k → k < 0 →
      unrounded v (voltsValue p.vref) (spanOffset mi g).toNat (mi.c[chIdx g c]).toNat (mi.m[chIdx g c]).toNat ≠
        (k : Rat) + 1 / 2) →
    voltageToCode p mi (v + 4 * voltsValue p.vref * (((mi.m[chIdx g c]).toNat : Rat) + 1) / 65536) g c =
      voltageToCode p mi v g c

/-- At zero volts and the creation trims the code is 0xD550 for every VREF, both tie rules and every channel; a binary64
voltage is not finite exactly when its exponent field is all ones (41_transfer_function.md sections 1 and 3). -/
def Obligations.ZeroVoltsAndFiniteness : Prop :=
  (∀ (p : Params) (g : GroupNo) (c : ChanNo), p.vtcArith = .exact →
    voltageToCode p Mirror.creation 0 g c = 0xD550#16) ∧
  (∀ b : Binary64, finiteVoltage b = none ↔ b.extractLsb' 52 11 = 0x7FF#11) ∧
  finiteVoltage 0x0000000000000000#64 = some 0 ∧ finiteVoltage 0xC00C000000000000#64 = some (-7 / 2)

/-! ## Creation and invariants -/

/-- 10_state.md R39: the creation value of every field of the block's state. -/
def Obligations.CreationValues : Prop :=
  (∀ i : Fin 40, State.reset.mirror.x1a[i] = 0x1555#14 ∧ State.reset.mirror.x1b[i] = 0x1555#14 ∧
    State.reset.mirror.c[i] = 0x2000#14 ∧ State.reset.mirror.m[i] = 0x3FFF#14) ∧
  State.reset.mirror.ofs0 = 0x1555#16 ∧ State.reset.mirror.ofs1 = 0x1555#16 ∧
  State.reset.mirror.control = 0x00#8 ∧ (∀ g : GroupNo, State.reset.mirror.select[g] = 0x00#8) ∧
  (∀ l, State.reset.lines.get l = .unknown) ∧ State.reset.phase = .idle

/-- The invariant holds at creation. -/
def Obligations.ResetMeetsInvariant : Prop := State.reset.Inv

/-- Every step keeps the invariant: the lines read what the trace's drives left, each action drew one answer, the phase is
legal, the control byte's reserved bits are 0, and no unused frame was ever sent (10_state.md sections 2 to 4,
30_encoding.md section 5). -/
def Obligations.StepKeepsInvariant : Prop := ∀ s t : State, s.Inv → step s = .next t → t.Inv

/-- Only read_all writes the mirror, and nothing writes its control and select bytes or the parameters (10_state.md
sections 2 and 5; the spec's own choice, D20, D21 and D25). -/
def Obligations.OnlyReadAllWritesMirror : Prop :=
  ∀ s t : State, step s = .next t →
    (t.mirror ≠ s.mirror → ∃ k, s.phase = .op .readAll k) ∧
    t.mirror.control = s.mirror.control ∧ t.mirror.select = s.mirror.select ∧ t.params = s.params

/-- Which operation can move which line (42_control_fsm.md section 2, the line state machine). -/
def Obligations.LinesMoveOnlyByTheirOperations : Prop :=
  ∀ s t : State, step s = .next t →
    (t.lines.reset ≠ s.lines.reset → ∃ k, s.phase = .op .init k ∨ s.phase = .op .reset k) ∧
    (t.lines.clr ≠ s.lines.clr →
      ∃ k, s.phase = .op .init k ∨ s.phase = .op .clear k ∨ s.phase = .op .restoreClear k) ∧
    (t.lines.ldac ≠ s.lines.ldac →
      ∃ k, s.phase = .op .init k ∨ s.phase = .op .setLdac k ∨ s.phase = .op .clearLdac k)

/-- A step issues at most one primitive action, with one draw of the oracle for it, and returns at most one result, which
leaves the block Idle; nothing recorded is ever changed (20_memory.md section 2 and 4, 60_exceptions.md section 3). -/
def Obligations.StepIssuesAtMostOneAction : Prop :=
  ∀ s t : State, step s = .next t →
    ∃ es rs, t.trace = s.trace ++ es ∧ es.length ≤ 1 ∧ t.draws = s.draws + es.length ∧
      t.results = s.results ++ rs ∧ rs.length ≤ 1 ∧ (rs ≠ [] → t.phase = .idle)

/-- 60_exceptions.md R231: HardwareIO is raised exactly when an action's answer is Err. -/
def Obligations.HardwareIOExactlyOnFailedAction : Prop :=
  ∀ s t : State, step s = .next t → ∀ a,
    ((∃ k, t.results = s.results ++ [.hardwareIO a k]) ↔ ∃ rs, t.trace = s.trace ++ [⟨a, .err, rs⟩])

/-- A step that raises General issues no action and changes no line and no mirror entry (60_exceptions.md section 1; the
checks are the spec's own choice, D5 and D28). -/
def Obligations.GeneralHasNoEffect : Prop :=
  ∀ (s t : State) (c : Check), step s = .next t → t.results = s.results ++ [.general c] →
    t.trace = s.trace ∧ t.answers = s.answers ∧ t.draws = s.draws ∧ t.mirror = s.mirror ∧ t.lines = s.lines ∧
    t.phase = .idle

/-- 20_memory.md R66: an operation in progress runs to its end before any call is taken; while the Executor holds the lock
no direct call is taken, and only the end of its run gives the lock up. -/
def Obligations.BusLockSerialisesOperations : Prop :=
  ∀ s t : State, step s = .next t →
    ((∃ o k, s.phase = .op o k) →
      t.hostCalls = s.hostCalls ∧ t.executorCalls = s.executorCalls ∧ t.executorHoldsLock = s.executorHoldsLock) ∧
    (s.executorHoldsLock = true → t.hostCalls = s.hostCalls) ∧
    (s.executorHoldsLock = true → t.executorHoldsLock = false →
      s.phase = .idle ∧ s.executorCalls = .stop :: t.executorCalls) ∧
    (s.executorHoldsLock = false → t.executorHoldsLock = true →
      s.phase = .idle ∧ s.hostCalls = .startExecutor :: t.hostCalls)

/-- No step depends on BUSY (10_state.md section 3; the spec's own choice, D27). -/
def Obligations.BusyIsNeverSampled : Prop :=
  ∀ (s : State) (b : Level), step { s with busy := b } = mapNext (fun t => { t with busy := b }) (step s)

/-- No step depends on what was recorded or returned before: an error leaves no mark (10_state.md section 1, 60_exceptions.md
section 3; the spec's own choice, D30). -/
def Obligations.PastErrorsLeaveNoMark : Prop :=
  ∀ (s : State) (tr : List Event) (rs : List Result),
    step { s with trace := tr, results := rs } =
      mapNext (fun t => { t with trace := tr ++ t.trace, results := rs ++ t.results })
        (step { s with trace := [], results := [] })

/-- What NDS states the DAC does on a line drive (20_memory.md section 5): a drive of RESET to High from Low is the rising
edge on which it reloads its defaults, CLR asserted forces the clear-code, LDAC asserted transfers, LDAC deasserted does
nothing. That CLR is asserted at Low is the spec's own choice (D12). -/
def Obligations.StatedLineReactions : Prop :=
  (∀ ls : Lines, ls.reset = .low → lineReaction ls .reset .high = .reloadDefaults) ∧
  (∀ ls : Lines, ls.reset = .high → lineReaction ls .reset .high = .nothingStated) ∧
  (∀ ls : Lines, ls.clr ≠ .low → lineReaction ls .clr .low = .outputsToClearCode) ∧
  (∀ ls : Lines, lineReaction ls .ldac .low = .loadActive) ∧
  (∀ ls : Lines, lineReaction ls .ldac .high = .nothingStated)

/-- Under VTC_ARITH binary64 X lies within binary64 error of the exact X, and the code differs from the exact one only where
a half-integer lies within that error of the exact X (41_transfer_function.md sections 1 and 3). How much binary64 error is,
twelve roundings of the sum of the terms' sizes, is the model's choice (log entry 3). -/
def Obligations.Binary64AgreesWithinError : Prop :=
  (∀ (v : Rat) (vr : Volts) (ofs c m : Nat),
    |convertedX .binary64 v (voltsValue vr) ofs c m - unrounded v (voltsValue vr) ofs c m| ≤
      12 / 2 ^ 53 * ((|v| * 65536 / (4 * voltsValue vr) + (4 * (ofs : Rat) + 32768 + (c : Rat))) *
        (65536 / ((m : Rat) + 1)))) ∧
  (∀ (p : Params) (mi : Mirror) (v : Rat) (g : GroupNo) (c : ChanNo), p.vtcArith = .binary64 →
    (∀ k : Int,
      binary64Error v (voltsValue p.vref) (spanOffset mi g).toNat (mi.c[chIdx g c]).toNat (mi.m[chIdx g c]).toNat <
        |unrounded v (voltsValue p.vref) (spanOffset mi g).toNat (mi.c[chIdx g c]).toNat (mi.m[chIdx g c]).toNat -
          ((k : Rat) + 1 / 2)|) →
    voltageToCode p mi v g c = voltageToCode { p with vtcArith := .exact } mi v g c)
end

