-- ==== Sys2Proof/Laws/Codec.lean ====
section
/-! SUPPORT. The codec's small lemmas: the fields of an assembled frame and of an assembled selector, a frame from its
fields and from its bytes, the codes of well-formed addresses, and when an encoder is defined. -/

namespace Sys2Proof

/-! ## Frames and their fields -/

@[simp] theorem Frame.mode_ofFields (m : BitVec 2) (a : BitVec 6) (d : Word) :
    Frame.mode (Frame.ofFields m a d) = m := by
  unfold Frame.mode Frame.ofFields
  ext i hi
  simp only [BitVec.getElem_extractLsb', BitVec.getLsbD_append]
  simp [show ¬ (22 + i < 16) by omega, show ¬ (22 + i - 16 < 6) by omega,
    show 22 + i - 16 - 6 = i by omega, BitVec.getLsbD_eq_getElem hi]

@[simp] theorem Frame.addr_ofFields (m : BitVec 2) (a : BitVec 6) (d : Word) :
    Frame.addr (Frame.ofFields m a d) = a := by
  unfold Frame.addr Frame.ofFields
  ext i hi
  simp only [BitVec.getElem_extractLsb', BitVec.getLsbD_append]
  simp [show ¬ (16 + i < 16) by omega, BitVec.getLsbD_eq_getElem hi]
  exact fun h => absurd h (by omega)

@[simp] theorem Frame.data_ofFields (m : BitVec 2) (a : BitVec 6) (d : Word) :
    Frame.data (Frame.ofFields m a d) = d := by
  unfold Frame.data Frame.ofFields
  ext i hi
  simp only [BitVec.getElem_extractLsb', BitVec.getLsbD_append]
  simp [hi]

/-- A frame is its three fields. -/
theorem Frame.ofFields_fields (w : Frame) : Frame.ofFields w.mode w.addr w.data = w := by
  unfold Frame.ofFields Frame.mode Frame.addr Frame.data
  ext i hi
  simp only [BitVec.getElem_append, BitVec.getElem_extractLsb']
  by_cases h1 : i < 16
  · simp [h1, BitVec.getLsbD_eq_getElem hi]
  · by_cases h2 : i - 16 < 6
    · simp [h1, h2, show 16 + (i - 16) = i by omega, BitVec.getLsbD_eq_getElem hi]
    · simp [h1, h2, show 22 + (i - 16 - 6) = i by omega, BitVec.getLsbD_eq_getElem hi]

/-- A frame is its three bytes. -/
theorem Frame.ofBytes_bytes (w : Frame) : Frame.ofBytes w.byte0 w.byte1 w.byte2 = w := by
  unfold Frame.ofBytes Frame.byte0 Frame.byte1 Frame.byte2
  ext i hi
  simp only [BitVec.getElem_append, BitVec.getElem_extractLsb']
  by_cases h1 : i < 8
  · simp [h1, BitVec.getLsbD_eq_getElem hi]
  · by_cases h2 : i - 8 < 8
    · simp [h1, h2, show 8 + (i - 8) = i by omega, BitVec.getLsbD_eq_getElem hi]
    · simp [h1, h2, show 16 + (i - 8 - 8) = i by omega, BitVec.getLsbD_eq_getElem hi]

/-- Decoding a frame's bytes is decoding the frame. -/
theorem decode_bytes (w : Frame) (rest : List Byte) :
    decode (w.byte0 :: w.byte1 :: w.byte2 :: rest) = (decodeInstr w).map fun i => (i, rest) := by
  simp [decode, Frame.ofBytes_bytes]

/-! ## Selectors and their fields -/

@[simp] theorem selClass_selOf (k : BitVec 3) (n : Nat) : selClass (selOf k n) = k := by
  unfold selClass selOf
  ext i hi
  simp only [BitVec.getElem_extractLsb', BitVec.getLsbD_append]
  simp [show ¬ (13 + i < 7) by omega, show ¬ (13 + i - 7 < 6) by omega,
    show 13 + i - 7 - 6 = i by omega, BitVec.getLsbD_eq_getElem hi]

@[simp] theorem selNumber_selOf (k : BitVec 3) (n : Nat) : selNumber (selOf k n) = BitVec.ofNat 6 n := by
  unfold selNumber selOf
  ext i hi
  simp only [BitVec.getElem_extractLsb', BitVec.getLsbD_append]
  simp [show ¬ (7 + i < 7) by omega, show 7 + i - 7 = i by omega, hi]

@[simp] theorem selZero_selOf (k : BitVec 3) (n : Nat) : selZero (selOf k n) = 0#7 := by
  unfold selZero selOf
  ext i hi
  simp only [BitVec.getElem_extractLsb', BitVec.getLsbD_append]
  simp [hi]

/-! ## Codes -/

@[simp] theorem Mode.ofBits_bits (m : Mode) : Mode.ofBits m.bits = m := by cases m <;> rfl

theorem Mode.bits_ofBits (b : BitVec 2) : (Mode.ofBits b).bits = b := by revert b; decide

/-- The code of a well-formed target decodes to the target (30_encoding.md R98). -/
theorem decodeTarget_chcode (t : ChannelAddress) (h : t.wf = true) : decodeTarget (chcode t) = some t := by
  cases t with
  | allCh => rfl
  | singleGroup g =>
    simp only [ChannelAddress.wf, decide_eq_true_eq] at h
    interval_cases g <;> rfl
  | singleCh g c =>
    simp only [ChannelAddress.wf, Bool.and_eq_true, decide_eq_true_eq] at h
    obtain ⟨hg, hc⟩ := h
    interval_cases g <;> interval_cases c <;> rfl
  | chx c =>
    simp only [ChannelAddress.wf, decide_eq_true_eq] at h
    interval_cases c <;> rfl
  | chxExceptGroup0 c =>
    simp only [ChannelAddress.wf, decide_eq_true_eq] at h
    interval_cases c <;> rfl

@[simp] theorem decodeSpecialAddr_sfcode (a : SpecialFunctionAddress) :
    decodeSpecialAddr (sfcode a) = some a := by
  cases a with
  | select g => revert g; decide
  | _ => rfl

/-- The encoder is defined exactly on the modes Data, Offset and Gain with a well-formed target (40_frame_codec.md R120). -/
theorem encodeWrite_eq_some (m : Mode) (t : ChannelAddress) (d : Word) (f : Frame) :
    encodeWrite m t d = some f ↔
      m ≠ .special ∧ t.wf = true ∧ f = Frame.ofFields m.bits (chcode t) d := by
  unfold encodeWrite
  by_cases hm : m = .special
  · simp [hm]
  · cases ht : t.wf <;> simp [hm, eq_comm]

theorem encodeWrite_of_wf {m : Mode} {t : ChannelAddress} (hm : m ≠ .special) (ht : t.wf = true) (d : Word) :
    encodeWrite m t d = some (Frame.ofFields m.bits (chcode t) d) :=
  (encodeWrite_eq_some m t d _).2 ⟨hm, ht, rfl⟩

theorem encodeWrite_of_not_wf {t : ChannelAddress} (ht : t.wf = false) (m : Mode) (d : Word) :
    encodeWrite m t d = none := by simp [encodeWrite, ht]

end Sys2Proof
end

