-- ==== Sys2Proof/Laws/Converter.lean ====
section
/-! SUPPORT. What the converter's X is under each VTC_ARITH, and that binary64 error is an interval around the exact X. -/

namespace Sys2Proof.Machine

@[simp] theorem convertedX_exact (voltage vref : Rat) (ofs c m : Nat) :
    convertedX .exact voltage vref ofs c m = unrounded voltage vref ofs c m := rfl

theorem convertedX_binary64 (voltage vref : Rat) (ofs c m : Nat) :
    convertedX .binary64 voltage vref ofs c m = unrounded voltage vref ofs c m +
      confine (binary64Error voltage vref ofs c m) (Config.binary64Deviation voltage vref ofs c m) := rfl

theorem voltsValue_pos (v : Volts) : 0 < voltsValue v := by
  unfold voltsValue
  rw [Rat.mkRat_eq_div]
  positivity

theorem abs_confine_le {bound : Rat} (h : 0 ≤ bound) (x : Rat) : |confine bound x| ≤ bound :=
  abs_le.2 ⟨le_max_left _ _, max_le (by linarith) (min_le_left _ _)⟩

/-- What is within the bound is left as it is: every value of the interval is possible. -/
theorem confine_of_abs_le {bound x : Rat} (h : |x| ≤ bound) : confine bound x = x := by
  obtain ⟨hl, hr⟩ := abs_le.1 h
  rw [confine, min_eq_right hr, max_eq_right hl]

theorem binary64Error_nonneg (voltage : Rat) {vref : Rat} (h : 0 < vref) (ofs c m : Nat) :
    0 ≤ binary64Error voltage vref ofs c m := by
  unfold binary64Error unroundedSize unitRoundoff
  positivity

end Sys2Proof.Machine
end

