-- ==== Sys2Proof/Laws/State.lean ====
section
/-! SUPPORT. One lemma per field per update, all by rfl: no later proof unfolds a record update. -/

namespace Sys2Proof.Machine

@[simp] theorem State.drawn_mirror (s : State) : s.drawn.mirror = s.mirror := rfl
@[simp] theorem State.drawn_lines (s : State) : s.drawn.lines = s.lines := rfl
@[simp] theorem State.drawn_phase (s : State) : s.drawn.phase = s.phase := rfl
@[simp] theorem State.drawn_params (s : State) : s.drawn.params = s.params := rfl
@[simp] theorem State.drawn_busy (s : State) : s.drawn.busy = s.busy := rfl
@[simp] theorem State.drawn_executorHoldsLock (s : State) : s.drawn.executorHoldsLock = s.executorHoldsLock := rfl
@[simp] theorem State.drawn_hostCalls (s : State) : s.drawn.hostCalls = s.hostCalls := rfl
@[simp] theorem State.drawn_executorCalls (s : State) : s.drawn.executorCalls = s.executorCalls := rfl
@[simp] theorem State.drawn_answers (s : State) : s.drawn.answers = s.answers.tail := rfl
@[simp] theorem State.drawn_draws (s : State) : s.drawn.draws = s.draws + 1 := rfl
@[simp] theorem State.drawn_trace (s : State) : s.drawn.trace = s.trace := rfl
@[simp] theorem State.drawn_results (s : State) : s.drawn.results = s.results := rfl

@[simp] theorem State.record_mirror (a : Action) (x : Answer) (s : State) : (s.record a x).mirror = s.mirror := rfl
@[simp] theorem State.record_lines (a : Action) (x : Answer) (s : State) : (s.record a x).lines = s.lines := rfl
@[simp] theorem State.record_phase (a : Action) (x : Answer) (s : State) : (s.record a x).phase = s.phase := rfl
@[simp] theorem State.record_params (a : Action) (x : Answer) (s : State) : (s.record a x).params = s.params := rfl
@[simp] theorem State.record_busy (a : Action) (x : Answer) (s : State) : (s.record a x).busy = s.busy := rfl
@[simp] theorem State.record_executorHoldsLock (a : Action) (x : Answer) (s : State) : (s.record a x).executorHoldsLock = s.executorHoldsLock := rfl
@[simp] theorem State.record_hostCalls (a : Action) (x : Answer) (s : State) : (s.record a x).hostCalls = s.hostCalls := rfl
@[simp] theorem State.record_executorCalls (a : Action) (x : Answer) (s : State) : (s.record a x).executorCalls = s.executorCalls := rfl
@[simp] theorem State.record_answers (a : Action) (x : Answer) (s : State) : (s.record a x).answers = s.answers := rfl
@[simp] theorem State.record_draws (a : Action) (x : Answer) (s : State) : (s.record a x).draws = s.draws := rfl
@[simp] theorem State.record_trace (a : Action) (x : Answer) (s : State) : (s.record a x).trace = s.trace ++ [⟨a, replyOf a x, reactions s.lines a⟩] := rfl
@[simp] theorem State.record_results (a : Action) (x : Answer) (s : State) : (s.record a x).results = s.results := rfl

@[simp] theorem State.finish_mirror (r : Result) (s : State) : (s.finish r).mirror = s.mirror := rfl
@[simp] theorem State.finish_lines (r : Result) (s : State) : (s.finish r).lines = s.lines := rfl
@[simp] theorem State.finish_phase (r : Result) (s : State) : (s.finish r).phase = .idle := rfl
@[simp] theorem State.finish_params (r : Result) (s : State) : (s.finish r).params = s.params := rfl
@[simp] theorem State.finish_busy (r : Result) (s : State) : (s.finish r).busy = s.busy := rfl
@[simp] theorem State.finish_executorHoldsLock (r : Result) (s : State) : (s.finish r).executorHoldsLock = s.executorHoldsLock := rfl
@[simp] theorem State.finish_hostCalls (r : Result) (s : State) : (s.finish r).hostCalls = s.hostCalls := rfl
@[simp] theorem State.finish_executorCalls (r : Result) (s : State) : (s.finish r).executorCalls = s.executorCalls := rfl
@[simp] theorem State.finish_answers (r : Result) (s : State) : (s.finish r).answers = s.answers := rfl
@[simp] theorem State.finish_draws (r : Result) (s : State) : (s.finish r).draws = s.draws := rfl
@[simp] theorem State.finish_trace (r : Result) (s : State) : (s.finish r).trace = s.trace := rfl
@[simp] theorem State.finish_results (r : Result) (s : State) : (s.finish r).results = s.results ++ [r] := rfl

@[simp] theorem placeFrame_mirror (w : Frame) (s : State) : (placeFrame w s).mirror = s.mirror := rfl
@[simp] theorem placeFrame_lines (w : Frame) (s : State) : (placeFrame w s).lines = s.lines := rfl
@[simp] theorem placeFrame_phase (w : Frame) (s : State) : (placeFrame w s).phase = .idle := rfl
@[simp] theorem placeFrame_params (w : Frame) (s : State) : (placeFrame w s).params = s.params := rfl
@[simp] theorem placeFrame_busy (w : Frame) (s : State) : (placeFrame w s).busy = s.busy := rfl
@[simp] theorem placeFrame_executorHoldsLock (w : Frame) (s : State) : (placeFrame w s).executorHoldsLock = false := rfl
@[simp] theorem placeFrame_hostCalls (w : Frame) (s : State) : (placeFrame w s).hostCalls = .frame w :: s.hostCalls := rfl
@[simp] theorem placeFrame_executorCalls (w : Frame) (s : State) : (placeFrame w s).executorCalls = s.executorCalls := rfl
@[simp] theorem placeFrame_answers (w : Frame) (s : State) : (placeFrame w s).answers = s.answers := rfl
@[simp] theorem placeFrame_draws (w : Frame) (s : State) : (placeFrame w s).draws = s.draws := rfl
@[simp] theorem placeFrame_trace (w : Frame) (s : State) : (placeFrame w s).trace = s.trace := rfl
@[simp] theorem placeFrame_results (w : Frame) (s : State) : (placeFrame w s).results = s.results := rfl

@[simp] theorem State.advance_mirror (a : Action) (x : Answer) (s : State) : (s.advance a x).mirror = s.mirror := by
  unfold State.advance; split <;> rfl
@[simp] theorem State.advance_lines (a : Action) (x : Answer) (s : State) : (s.advance a x).lines = s.lines := by
  unfold State.advance; split <;> rfl
@[simp] theorem State.advance_params (a : Action) (x : Answer) (s : State) : (s.advance a x).params = s.params := by
  unfold State.advance; split <;> rfl
@[simp] theorem State.advance_busy (a : Action) (x : Answer) (s : State) : (s.advance a x).busy = s.busy := by
  unfold State.advance; split <;> rfl
@[simp] theorem State.advance_executorHoldsLock (a : Action) (x : Answer) (s : State) : (s.advance a x).executorHoldsLock = s.executorHoldsLock := by
  unfold State.advance; split <;> rfl
@[simp] theorem State.advance_hostCalls (a : Action) (x : Answer) (s : State) : (s.advance a x).hostCalls = s.hostCalls := by
  unfold State.advance; split <;> rfl
@[simp] theorem State.advance_executorCalls (a : Action) (x : Answer) (s : State) : (s.advance a x).executorCalls = s.executorCalls := by
  unfold State.advance; split <;> rfl
@[simp] theorem State.advance_answers (a : Action) (x : Answer) (s : State) : (s.advance a x).answers = s.answers := by
  unfold State.advance; split <;> rfl
@[simp] theorem State.advance_draws (a : Action) (x : Answer) (s : State) : (s.advance a x).draws = s.draws := by
  unfold State.advance; split <;> rfl
@[simp] theorem State.advance_trace (a : Action) (x : Answer) (s : State) : (s.advance a x).trace = s.trace := by
  unfold State.advance; split <;> rfl

@[simp] theorem Lines.put_reset_reset (ls : Lines) (v : Level) : (ls.put .reset v).reset = v := rfl
@[simp] theorem Lines.put_reset_clr (ls : Lines) (v : Level) : (ls.put .reset v).clr = ls.clr := rfl
@[simp] theorem Lines.put_reset_ldac (ls : Lines) (v : Level) : (ls.put .reset v).ldac = ls.ldac := rfl
@[simp] theorem Lines.put_clr_reset (ls : Lines) (v : Level) : (ls.put .clr v).reset = ls.reset := rfl
@[simp] theorem Lines.put_clr_clr (ls : Lines) (v : Level) : (ls.put .clr v).clr = v := rfl
@[simp] theorem Lines.put_clr_ldac (ls : Lines) (v : Level) : (ls.put .clr v).ldac = ls.ldac := rfl
@[simp] theorem Lines.put_ldac_reset (ls : Lines) (v : Level) : (ls.put .ldac v).reset = ls.reset := rfl
@[simp] theorem Lines.put_ldac_clr (ls : Lines) (v : Level) : (ls.put .ldac v).clr = ls.clr := rfl
@[simp] theorem Lines.put_ldac_ldac (ls : Lines) (v : Level) : (ls.put .ldac v).ldac = v := rfl

@[simp] theorem Lines.get_put (ls : Lines) (l k : Line) (v : Level) :
    (ls.put l v).get k = if k = l then v else ls.get k := by cases l <;> cases k <;> rfl

end Sys2Proof.Machine
end

