-- ==== Sys2Proof/Laws/Ops.lean ====
section
/-! SUPPORT. What each shared operation does, field by field: `State.answered`, `perform`, `sendWrite` and the other sends.
Later proofs cite these and do not unfold the operations. -/

namespace Sys2Proof.Machine

/-! ## One action with a given answer -/

@[simp] theorem State.answered_lines (a : Action) (x : Answer) (s : State) :
    (s.answered a x).lines = linesAfter a x s.lines := by simp [State.answered]
@[simp] theorem State.answered_mirror (a : Action) (x : Answer) (s : State) :
    (s.answered a x).mirror = mirrorAfter s.params s.phase a x s.mirror := by simp [State.answered]
@[simp] theorem State.answered_trace (a : Action) (x : Answer) (s : State) :
    (s.answered a x).trace = s.trace ++ [⟨a, replyOf a x, reactions s.lines a⟩] := by simp [State.answered]
@[simp] theorem State.answered_answers (a : Action) (x : Answer) (s : State) :
    (s.answered a x).answers = s.answers.tail := by simp [State.answered]
@[simp] theorem State.answered_draws (a : Action) (x : Answer) (s : State) :
    (s.answered a x).draws = s.draws + 1 := by simp [State.answered]
@[simp] theorem State.answered_params (a : Action) (x : Answer) (s : State) :
    (s.answered a x).params = s.params := by simp [State.answered]
@[simp] theorem State.answered_busy (a : Action) (x : Answer) (s : State) :
    (s.answered a x).busy = s.busy := by simp [State.answered]
@[simp] theorem State.answered_executorHoldsLock (a : Action) (x : Answer) (s : State) :
    (s.answered a x).executorHoldsLock = s.executorHoldsLock := by simp [State.answered]
@[simp] theorem State.answered_hostCalls (a : Action) (x : Answer) (s : State) :
    (s.answered a x).hostCalls = s.hostCalls := by simp [State.answered]
@[simp] theorem State.answered_executorCalls (a : Action) (x : Answer) (s : State) :
    (s.answered a x).executorCalls = s.executorCalls := by simp [State.answered]

/-- The four ways phase and results move on one action. -/
theorem State.answered_ends (a : Action) (x : Answer) (s : State) :
    (∃ o k r, s.phase = .op o k ∧ x = .ok r ∧ (s.answered a x).phase = .op o (k + 1) ∧
      (s.answered a x).results = s.results) ∨
    (∃ o k, s.phase = .op o k ∧ x = .err ∧ (s.answered a x).phase = .idle ∧
      (s.answered a x).results = s.results ++ [.hardwareIO a k]) ∨
    (∃ r, s.phase = .idle ∧ x = .ok r ∧ (s.answered a x).phase = .idle ∧
      (s.answered a x).results = s.results ++ [.ok (handFrameValue a r)]) ∨
    (s.phase = .idle ∧ x = .err ∧ (s.answered a x).phase = .idle ∧
      (s.answered a x).results = s.results ++ [.hardwareIO a 0]) := by
  cases h : s.phase <;> cases x <;> simp [State.answered, State.advance, h]

/-- In an operation, an answer Ok leaves this state. -/
theorem State.answered_op_ok {s : State} {o : HostOp} {k : Nat} (h : s.phase = .op o k) (a : Action) (r : Response) :
    s.answered a (.ok r) =
      { s with
        phase := .op o (k + 1)
        lines := linesAfter a (.ok r) s.lines
        mirror := mirrorAfter s.params s.phase a (.ok r) s.mirror
        answers := s.answers.tail
        draws := s.draws + 1
        trace := s.trace ++ [⟨a, replyOf a (.ok r), reactions s.lines a⟩] } := by
  simp [State.answered, State.advance, h, State.record, State.drawn]

/-- In an operation, an answer Err leaves this state. -/
theorem State.answered_op_err {s : State} {o : HostOp} {k : Nat} (h : s.phase = .op o k) (a : Action) :
    s.answered a .err =
      { s with
        phase := .idle
        lines := linesAfter a .err s.lines
        answers := s.answers.tail
        draws := s.draws + 1
        trace := s.trace ++ [⟨a, .err, reactions s.lines a⟩]
        results := s.results ++ [.hardwareIO a k] } := by
  simp [State.answered, State.advance, h, State.record, State.drawn, State.finish, mirrorAfter, replyOf]

/-! ## The mirror and the lines -/

/-- Only a successful BusRead of read_all writes the mirror. -/
theorem mirrorAfter_cases (p : Params) (ph : Phase) (a : Action) (x : Answer) (m : Mirror) :
    mirrorAfter p ph a x m = m ∨
    ∃ k f r, ph = .op .readAll k ∧ a = .busRead f ∧ x = .ok r ∧
      mirrorAfter p ph a x m = fileResponse p.readbackShift k (resp16 r) m := by
  unfold mirrorAfter
  split
  · exact .inr ⟨_, _, _, rfl, rfl, rfl, rfl⟩
  · exact .inl rfl

@[simp] theorem mirrorAfter_idle (p : Params) (a : Action) (x : Answer) (m : Mirror) :
    mirrorAfter p .idle a x m = m := rfl
@[simp] theorem mirrorAfter_busWrite (p : Params) (ph : Phase) (f : Frame) (x : Answer) (m : Mirror) :
    mirrorAfter p ph (.busWrite f) x m = m := by
  cases ph with
  | idle => rfl
  | op o k => cases o <;> rfl
@[simp] theorem mirrorAfter_lineDrive (p : Params) (ph : Phase) (l : Line) (v : Drive) (x : Answer) (m : Mirror) :
    mirrorAfter p ph (.lineDrive l v) x m = m := by
  cases ph with
  | idle => rfl
  | op o k => cases o <;> rfl
@[simp] theorem mirrorAfter_err (p : Params) (ph : Phase) (a : Action) (m : Mirror) :
    mirrorAfter p ph a .err m = m := by
  rcases mirrorAfter_cases p ph a .err m with h | ⟨_, _, _, _, _, hx, _⟩
  · exact h
  · exact absurd hx (by simp)

@[simp] theorem linesAfter_busWrite (f : Frame) (x : Answer) (ls : Lines) : linesAfter (.busWrite f) x ls = ls := rfl
@[simp] theorem linesAfter_busRead (f : Frame) (x : Answer) (ls : Lines) : linesAfter (.busRead f) x ls = ls := rfl

/-- No filing touches the control byte. -/
@[simp] theorem storeResponse_control (r : ReadBackAddr) (v : Word) (m : Mirror) :
    (storeResponse r v m).control = m.control := by cases r <;> rfl
/-- No filing touches the select bytes. -/
@[simp] theorem storeResponse_select (r : ReadBackAddr) (v : Word) (m : Mirror) :
    (storeResponse r v m).select = m.select := by cases r <;> rfl
@[simp] theorem fileResponse_control (sh : ReadbackShift) (k : Nat) (v : Word) (m : Mirror) :
    (fileResponse sh k v m).control = m.control := by unfold fileResponse; split <;> simp
@[simp] theorem fileResponse_select (sh : ReadbackShift) (k : Nat) (v : Word) (m : Mirror) :
    (fileResponse sh k v m).select = m.select := by unfold fileResponse; split <;> simp
@[simp] theorem mirrorAfter_control (p : Params) (ph : Phase) (a : Action) (x : Answer) (m : Mirror) :
    (mirrorAfter p ph a x m).control = m.control := by
  rcases mirrorAfter_cases p ph a x m with h | ⟨_, _, _, _, _, _, h⟩ <;> rw [h]; simp
@[simp] theorem mirrorAfter_select (p : Params) (ph : Phase) (a : Action) (x : Answer) (m : Mirror) :
    (mirrorAfter p ph a x m).select = m.select := by
  rcases mirrorAfter_cases p ph a x m with h | ⟨_, _, _, _, _, _, h⟩ <;> rw [h]; simp

/-! ## The request list -/

theorem readList_length : readList.length = 163 := by decide +kernel

/-! ## Sending a frame -/

theorem sendWrite_wf {m : Mode} {t : ChannelAddress} (hm : m ≠ .special) (ht : t.wf = true) (d : Word) (s : State) :
    sendWrite m t d s = .next (perform (.busWrite (Frame.ofFields m.bits (chcode t) d)) s) := by
  simp [sendWrite, encodeWrite_of_wf hm ht]

theorem sendWrite_not_wf {t : ChannelAddress} (ht : t.wf = false) (m : Mode) (d : Word) (s : State) :
    sendWrite m t d s = .next (s.finish (.general .addressOutOfRange)) := by
  simp [sendWrite, encodeWrite_of_not_wf ht]

/-! ## Starting and continuing an operation -/

theorem startOp_checked {o : HostOp} (h : operandCheck o = none) (s : State) :
    startOp o s = { s with phase := .op o 0 } := by simp [startOp, h]

theorem startOp_refused {o : HostOp} {c : Check} (h : operandCheck o = some c) (s : State) :
    startOp o s = s.finish (.general c) := by simp [startOp, h]

theorem continueOp_action {o : HostOp} {k : Nat} {a : Action} {s : State}
    (h : (actionsOf s.params s.mirror o)[k]? = some a) : continueOp o k s = perform a s := by
  simp [continueOp, h]

theorem continueOp_return {o : HostOp} {k : Nat} {s : State}
    (h : (actionsOf s.params s.mirror o).length ≤ k) :
    continueOp o k s = s.finish (.ok (returnValue s.params s.mirror o)) := by
  simp [continueOp, List.getElem?_eq_none h]

end Sys2Proof.Machine
end

