-- ==== Sys2Proof/Laws/PerInstr.lean ====
section
/-! SUPPORT. Statements about every instruction, one lemma per constructor. CanonicalForm: the decoder's name of an
instruction is well formed exactly when the instruction is, and it is its own canonical form. -/

namespace Sys2Proof.Laws.CanonicalForm

def Statement (i : Instr) : Prop := i.canonical.wf = i.wf ∧ i.canonical.canonical = i.canonical

theorem request_wf (r : ReadBackAddr) : r.request.wf = true := by cases r <;> rfl

theorem request_canonical (r : ReadBackAddr) : r.request.canonical = r.request := by cases r <;> rfl

theorem wrDataAll (d : Word) : Statement (.wrDataAll d) := ⟨rfl, rfl⟩
theorem wrDataGrp (g : Nat) (d : Word) : Statement (.wrDataGrp g d) := ⟨rfl, rfl⟩
theorem wrDataCh (g c : Nat) (d : Word) : Statement (.wrDataCh g c d) := ⟨rfl, rfl⟩
theorem wrDataChx (c : Nat) (d : Word) : Statement (.wrDataChx c d) := ⟨rfl, rfl⟩
theorem wrDataChxng0 (c : Nat) (d : Word) : Statement (.wrDataChxng0 c d) := ⟨rfl, rfl⟩
theorem wrOffsetAll (d : Word) : Statement (.wrOffsetAll d) := ⟨rfl, rfl⟩
theorem wrOffsetGrp (g : Nat) (d : Word) : Statement (.wrOffsetGrp g d) := ⟨rfl, rfl⟩
theorem wrOffsetCh (g c : Nat) (d : Word) : Statement (.wrOffsetCh g c d) := ⟨rfl, rfl⟩
theorem wrOffsetChx (c : Nat) (d : Word) : Statement (.wrOffsetChx c d) := ⟨rfl, rfl⟩
theorem wrOffsetChxng0 (c : Nat) (d : Word) : Statement (.wrOffsetChxng0 c d) := ⟨rfl, rfl⟩
theorem wrGainAll (d : Word) : Statement (.wrGainAll d) := ⟨rfl, rfl⟩
theorem wrGainGrp (g : Nat) (d : Word) : Statement (.wrGainGrp g d) := ⟨rfl, rfl⟩
theorem wrGainCh (g c : Nat) (d : Word) : Statement (.wrGainCh g c d) := ⟨rfl, rfl⟩
theorem wrGainChx (c : Nat) (d : Word) : Statement (.wrGainChx c d) := ⟨rfl, rfl⟩
theorem wrGainChxng0 (c : Nat) (d : Word) : Statement (.wrGainChxng0 c d) := ⟨rfl, rfl⟩
theorem sfControl (d : Word) : Statement (.sfControl d) := ⟨rfl, rfl⟩
theorem sfOfs0 (d : Word) : Statement (.sfOfs0 d) := ⟨rfl, rfl⟩
theorem sfOfs1 (d : Word) : Statement (.sfOfs1 d) := ⟨rfl, rfl⟩
theorem sfSelect (g : GroupNo) (d : Word) : Statement (.sfSelect g d) := ⟨rfl, rfl⟩
theorem sfSelectAll (d : Word) : Statement (.sfSelectAll d) := ⟨rfl, rfl⟩
theorem rdX1a (g : GroupNo) (c : ChanNo) : Statement (.rdX1a g c) := ⟨rfl, rfl⟩
theorem rdX1b (g : GroupNo) (c : ChanNo) : Statement (.rdX1b g c) := ⟨rfl, rfl⟩
theorem rdC (g : GroupNo) (c : ChanNo) : Statement (.rdC g c) := ⟨rfl, rfl⟩
theorem rdM (g : GroupNo) (c : ChanNo) : Statement (.rdM g c) := ⟨rfl, rfl⟩
theorem rdControl : Statement .rdControl := ⟨rfl, rfl⟩
theorem rdOfs0 : Statement .rdOfs0 := ⟨rfl, rfl⟩
theorem rdOfs1 : Statement .rdOfs1 := ⟨rfl, rfl⟩
theorem rdSelect (g : GroupNo) : Statement (.rdSelect g) := ⟨rfl, rfl⟩

theorem sfReadback (d : Word) : Statement (.sfReadback d) := by
  have key : (Instr.sfReadback d).canonical = readbackInstr d := rfl
  unfold Statement
  rw [key]
  unfold readbackInstr
  cases h : decodeSelector d with
  | some r => exact ⟨request_wf r, request_canonical r⟩
  | none => exact ⟨rfl, by simp [Instr.canonical, readbackInstr, h]⟩

end Sys2Proof.Laws.CanonicalForm
end

