-- ==== Sys2Proof/Laws/Scan.lean ====
section
/-! SUPPORT. The filing of read-back responses, field by field: which entry one response writes, and that channels have
different entries. -/

namespace Sys2Proof.Machine

theorem chIdx_inj {g g' : GroupNo} {c c' : ChanNo} (h : chIdx g c = chIdx g' c') : g = g' ∧ c = c' := by
  simp only [chIdx, Fin.mk.injEq] at h
  have := c.isLt
  have := c'.isLt
  exact ⟨Fin.ext (by omega), Fin.ext (by omega)⟩

theorem bank_set_getElem (v : Vector U14 40) (i j : Fin 40) (x : U14) : (v.set i x)[j] = if i = j then x else v[j] := by
  simp [Vector.getElem_set, Fin.ext_iff]

theorem storeResponse_x1a (r : ReadBackAddr) (v : Word) (m : Mirror) (g : GroupNo) (c : ChanNo) :
    (storeResponse r v m).x1a[chIdx g c] = if r = .x1a g c then trunc14 v else m.x1a[chIdx g c] := by
  cases r <;> simp only [storeResponse, bank_set_getElem, reduceCtorEq, if_false]
  rename_i g' c'
  by_cases h : chIdx g' c' = chIdx g c
  · obtain ⟨rfl, rfl⟩ := chIdx_inj h
    simp
  · rw [if_neg h, if_neg (fun e => h (by injection e with e1 e2; rw [e1, e2]))]

theorem storeResponse_x1b (r : ReadBackAddr) (v : Word) (m : Mirror) (g : GroupNo) (c : ChanNo) :
    (storeResponse r v m).x1b[chIdx g c] = if r = .x1b g c then trunc14 v else m.x1b[chIdx g c] := by
  cases r <;> simp only [storeResponse, bank_set_getElem, reduceCtorEq, if_false]
  rename_i g' c'
  by_cases h : chIdx g' c' = chIdx g c
  · obtain ⟨rfl, rfl⟩ := chIdx_inj h
    simp
  · rw [if_neg h, if_neg (fun e => h (by injection e with e1 e2; rw [e1, e2]))]

theorem storeResponse_c (r : ReadBackAddr) (v : Word) (m : Mirror) (g : GroupNo) (c : ChanNo) :
    (storeResponse r v m).c[chIdx g c] = if r = .c g c then trunc14 v else m.c[chIdx g c] := by
  cases r <;> simp only [storeResponse, bank_set_getElem, reduceCtorEq, if_false]
  rename_i g' c'
  by_cases h : chIdx g' c' = chIdx g c
  · obtain ⟨rfl, rfl⟩ := chIdx_inj h
    simp
  · rw [if_neg h, if_neg (fun e => h (by injection e with e1 e2; rw [e1, e2]))]

theorem storeResponse_m (r : ReadBackAddr) (v : Word) (m : Mirror) (g : GroupNo) (c : ChanNo) :
    (storeResponse r v m).m[chIdx g c] = if r = .m g c then trunc14 v else m.m[chIdx g c] := by
  cases r <;> simp only [storeResponse, bank_set_getElem, reduceCtorEq, if_false]
  rename_i g' c'
  by_cases h : chIdx g' c' = chIdx g c
  · obtain ⟨rfl, rfl⟩ := chIdx_inj h
    simp
  · rw [if_neg h, if_neg (fun e => h (by injection e with e1 e2; rw [e1, e2]))]

theorem storeResponse_ofs0 (r : ReadBackAddr) (v : Word) (m : Mirror) :
    (storeResponse r v m).ofs0 = if r = .ofs0 then v else m.ofs0 := by cases r <;> simp [storeResponse]

theorem storeResponse_ofs1 (r : ReadBackAddr) (v : Word) (m : Mirror) :
    (storeResponse r v m).ofs1 = if r = .ofs1 then v else m.ofs1 := by cases r <;> simp [storeResponse]

end Sys2Proof.Machine
end

