-- ==== Sys2Proof/Laws/Step.lean ====
section
/-! SUPPORT. What one step can do, said once (`step_cases`), and the step of each kind of state. -/

namespace Sys2Proof.Machine

/-- Every meaning answers a next state: one primitive action of the instruction's frame, or the General error of a target
out of range. -/
theorem exec_cases (i : Instr) (s : State) :
    (∃ f, exec i s = .next (perform (.busWrite f) s)) ∨ (∃ f, exec i s = .next (perform (.busRead f) s)) ∨
      exec i s = .next (s.finish (.general .addressOutOfRange)) := by
  have key : ∀ m t d, (∃ f, sendWrite m t d s = .next (perform (.busWrite f) s)) ∨
      sendWrite m t d s = .next (s.finish (.general .addressOutOfRange)) := by
    intro m t d
    unfold sendWrite
    cases encodeWrite m t d with
    | some f => exact .inl ⟨f, rfl⟩
    | none => exact .inr rfl
  cases i
  case wrDataAll d => exact (key .data .allCh d).imp_right .inr
  case wrDataGrp g d => exact (key .data (.singleGroup g) d).imp_right .inr
  case wrDataCh g c d => exact (key .data (.singleCh g c) d).imp_right .inr
  case wrDataChx c d => exact (key .data (.chx c) d).imp_right .inr
  case wrDataChxng0 c d => exact (key .data (.chxExceptGroup0 c) d).imp_right .inr
  case wrOffsetAll d => exact (key .offset .allCh d).imp_right .inr
  case wrOffsetGrp g d => exact (key .offset (.singleGroup g) d).imp_right .inr
  case wrOffsetCh g c d => exact (key .offset (.singleCh g c) d).imp_right .inr
  case wrOffsetChx c d => exact (key .offset (.chx c) d).imp_right .inr
  case wrOffsetChxng0 c d => exact (key .offset (.chxExceptGroup0 c) d).imp_right .inr
  case wrGainAll d => exact (key .gain .allCh d).imp_right .inr
  case wrGainGrp g d => exact (key .gain (.singleGroup g) d).imp_right .inr
  case wrGainCh g c d => exact (key .gain (.singleCh g c) d).imp_right .inr
  case wrGainChx c d => exact (key .gain (.chx c) d).imp_right .inr
  case wrGainChxng0 c d => exact (key .gain (.chxExceptGroup0 c) d).imp_right .inr
  case sfControl => exact .inl ⟨_, rfl⟩
  case sfOfs0 => exact .inl ⟨_, rfl⟩
  case sfOfs1 => exact .inl ⟨_, rfl⟩
  case sfSelect => exact .inl ⟨_, rfl⟩
  case sfSelectAll => exact .inl ⟨_, rfl⟩
  all_goals exact .inr (.inl ⟨_, rfl⟩)

theorem step_op {s : State} {o : HostOp} {k : Nat} (h : s.phase = .op o k) :
    step s = .next (continueOp o k s) := by simp [step, fetch, h]

theorem step_executor {s : State} (h : s.phase = .idle) (hl : s.executorHoldsLock = true) :
    step s = .next (serveExecutor s) := by simp [step, fetch, h, hl]

theorem step_waiting {s : State} (h : s.phase = .idle) (hl : s.executorHoldsLock = false) (hc : s.hostCalls = []) :
    step s = .next s := by simp [step, fetch, serveHost, h, hl, hc]

theorem step_host_op {s : State} {o : HostOp} {rest : List HostCall} (h : s.Ready (.op o) rest) :
    step s = .next (startOp o { s with hostCalls := rest }) := by
  obtain ⟨hp, hl, hc⟩ := h
  simp [step, fetch, serveHost, hp, hl, hc]

theorem step_start_executor {s : State} {rest : List HostCall} (h : s.Ready .startExecutor rest) :
    step s = .next { s with hostCalls := rest, executorHoldsLock := true } := by
  obtain ⟨hp, hl, hc⟩ := h
  simp [step, fetch, serveHost, hp, hl, hc]

theorem step_frame {s : State} {w : Frame} {rest : List HostCall} {i : Instr} (h : s.Ready (.frame w) rest)
    (hd : decodeInstr w = .ok i) : step s = exec i { s with hostCalls := rest } := by
  obtain ⟨hp, hl, hc⟩ := h
  simp [step, fetch, serveHost, hp, hl, hc, hd]

theorem step_unrecognised {s : State} {w : Frame} {rest : List HostCall} {e : DecodeError}
    (h : s.Ready (.frame w) rest) (hd : decodeInstr w = .error e) :
    step s = .refused (.unrecognisedFrame w.mode w.addr w.data) := by
  obtain ⟨hp, hl, hc⟩ := h
  simp [step, fetch, serveHost, hp, hl, hc, hd]

/-- Everything a step that answers a next state can be. -/
theorem step_cases {s t : State} (h : step s = .next t) :
    (∃ o k, s.phase = .op o k ∧ t = continueOp o k s) ∨
    (s.phase = .idle ∧ s.executorHoldsLock = true ∧ t = serveExecutor s) ∨
    (s.phase = .idle ∧ s.executorHoldsLock = false ∧ s.hostCalls = [] ∧ t = s) ∨
    (∃ o rest, s.Ready (.op o) rest ∧ t = startOp o { s with hostCalls := rest }) ∨
    (∃ rest, s.Ready .startExecutor rest ∧ t = { s with hostCalls := rest, executorHoldsLock := true }) ∨
    (∃ w rest i, s.Ready (.frame w) rest ∧ decodeInstr w = .ok i ∧
      exec i { s with hostCalls := rest } = .next t) := by
  obtain hp | ⟨o, k, hp⟩ : s.phase = .idle ∨ ∃ o k, s.phase = .op o k := by cases s.phase <;> simp
  swap
  · rw [step_op hp] at h
    injection h with h
    exact .inl ⟨o, k, hp, h.symm⟩
  obtain hl | hl : s.executorHoldsLock = true ∨ s.executorHoldsLock = false := by
    cases s.executorHoldsLock <;> simp
  · rw [step_executor hp hl] at h
    injection h with h
    exact .inr (.inl ⟨hp, hl, h.symm⟩)
  obtain hc | ⟨c, rest, hc⟩ : s.hostCalls = [] ∨ ∃ c rest, s.hostCalls = c :: rest := by
    cases s.hostCalls <;> simp
  · rw [step_waiting hp hl hc] at h
    injection h with h
    exact .inr (.inr (.inl ⟨hp, hl, hc, h.symm⟩))
  have hr : s.Ready c rest := ⟨hp, hl, hc⟩
  cases c with
  | op o =>
    rw [step_host_op hr] at h
    injection h with h
    exact .inr (.inr (.inr (.inl ⟨o, rest, hr, h.symm⟩)))
  | startExecutor =>
    rw [step_start_executor hr] at h
    injection h with h
    exact .inr (.inr (.inr (.inr (.inl ⟨rest, hr, h.symm⟩))))
  | frame w =>
    obtain ⟨i, hd⟩ | ⟨e, hd⟩ : (∃ i, decodeInstr w = .ok i) ∨ ∃ e, decodeInstr w = .error e := by
      cases decodeInstr w <;> simp
    · rw [step_frame hr hd] at h
      exact .inr (.inr (.inr (.inr (.inr ⟨w, rest, i, hr, hd, h⟩))))
    · rw [step_unrecognised hr hd] at h
      exact absurd h (by simp)

/-! ## The steps of an operation -/

theorem step_start_op {s : State} {o : HostOp} {rest : List HostCall} (h : s.Ready (.op o) rest)
    (hc : operandCheck o = none) : step s = .next { s with hostCalls := rest, phase := .op o 0 } := by
  rw [step_host_op h, startOp_checked hc]

theorem step_action_ok {s : State} {o : HostOp} {k : Nat} {a : Action} {r : Response} (hp : s.phase = .op o k)
    (ha : (actionsOf s.params s.mirror o)[k]? = some a) (hx : s.nextAnswer a = .ok r) :
    step s = .next
      { s with
        phase := .op o (k + 1)
        lines := linesAfter a (.ok r) s.lines
        mirror := mirrorAfter s.params s.phase a (.ok r) s.mirror
        answers := s.answers.tail
        draws := s.draws + 1
        trace := s.trace ++ [⟨a, replyOf a (.ok r), reactions s.lines a⟩] } := by
  rw [step_op hp, continueOp_action ha, perform, hx, State.answered_op_ok hp]

theorem step_action_err {s : State} {o : HostOp} {k : Nat} {a : Action} (hp : s.phase = .op o k)
    (ha : (actionsOf s.params s.mirror o)[k]? = some a) (hx : s.nextAnswer a = .err) :
    step s = .next
      { s with
        phase := .idle
        lines := linesAfter a .err s.lines
        answers := s.answers.tail
        draws := s.draws + 1
        trace := s.trace ++ [⟨a, .err, reactions s.lines a⟩]
        results := s.results ++ [.hardwareIO a k] } := by
  rw [step_op hp, continueOp_action ha, perform, hx, State.answered_op_err hp]

theorem step_return {s : State} {o : HostOp} {k : Nat} (hp : s.phase = .op o k)
    (ha : (actionsOf s.params s.mirror o).length ≤ k) :
    step s = .next
      { s with phase := .idle, results := s.results ++ [.ok (returnValue s.params s.mirror o)] } := by
  rw [step_op hp, continueOp_return ha]; rfl

/-! ## Runs and the oracle's answers along them -/

theorem StepsTo.one {s t : State} (h : step s = .next t) : StepsTo 1 s t := ⟨t, h, rfl⟩

theorem StepsTo.trans {n m : Nat} {s t u : State} (h : StepsTo n s t) (h' : StepsTo m t u) : StepsTo (n + m) s u := by
  induction n generalizing s with
  | zero =>
    rw [show s = t from h, Nat.zero_add]
    exact h'
  | succ n ih =>
    obtain ⟨v, hv, h⟩ := h
    rw [Nat.succ_add]
    exact ⟨v, hv, ih h⟩

theorem State.nextAnswer_eq_answerAt (s : State) (a : Action) : s.nextAnswer a = s.answerAt 0 a := by
  unfold State.nextAnswer State.answerAt
  cases s.answers <;> rfl

/-- After n draws, the m-th answer to come is answer n + m of before. -/
theorem State.answerAt_drop {s t : State} {n : Nat} (ha : t.answers = s.answers.drop n) (hd : t.draws = s.draws + n)
    (m : Nat) (a : Action) : t.answerAt m a = s.answerAt (n + m) a := by
  unfold State.answerAt
  rw [ha, hd, List.getElem?_drop, Nat.add_assoc]

end Sys2Proof.Machine
end

