-- ==== Sys2Proof/Machine/Assembler.lean ====
section
/-! DEFINITION. The textual syntax of frames (30_encoding.md R102): the statement of every instruction. It is naming only: no
meaning depends on it (92_eei_decisions.md D1). -/

namespace Sys2Proof.Machine

def hexDigit (n : Nat) : Char :=
  if n < 10 then Char.ofNat (48 + n) else Char.ofNat (55 + n)

/-- `<imm16>`: 0x and four hexadecimal digits. -/
def immText (d : Word) : String :=
  "0x" ++ String.ofList [hexDigit (d.toNat / 4096 % 16), hexDigit (d.toNat / 256 % 16), hexDigit (d.toNat / 16 % 16),
    hexDigit (d.toNat % 16)]

/-- `<g>` and `<c>`: one decimal digit in a well-formed statement. -/
def numText (n : Nat) : String := if n < 10 then String.ofList [Char.ofNat (48 + n)] else toString n

/-- `<target>`. -/
def targetText : ChannelAddress → String
  | .allCh => "all"
  | .singleGroup g => "grp(" ++ numText g ++ ")"
  | .singleCh g c => "ch(" ++ numText g ++ "," ++ numText c ++ ")"
  | .chx c => "chx(" ++ numText c ++ ")"
  | .chxExceptGroup0 c => "chx_ng0(" ++ numText c ++ ")"

/-- `<rbaddr>`. -/
def registerText : ReadBackAddr → String
  | .x1a g c => "x1a(" ++ numText g.val ++ "," ++ numText c.val ++ ")"
  | .x1b g c => "x1b(" ++ numText g.val ++ "," ++ numText c.val ++ ")"
  | .c g c => "c(" ++ numText g.val ++ "," ++ numText c.val ++ ")"
  | .m g c => "m(" ++ numText g.val ++ "," ++ numText c.val ++ ")"
  | .control => "control"
  | .ofs0 => "ofs0"
  | .ofs1 => "ofs1"
  | .select g => "select(" ++ numText g.val ++ ")"

/-- `wr.<mode> <target>, <imm16>`. -/
def writeText (kind : String) (t : ChannelAddress) (d : Word) : String :=
  kind ++ " " ++ targetText t ++ ", " ++ immText d

/-- The statement of an instruction. -/
def asmText : Instr → String
  | .wrDataAll d => writeText "wr.data" .allCh d
  | .wrDataGrp g d => writeText "wr.data" (.singleGroup g) d
  | .wrDataCh g c d => writeText "wr.data" (.singleCh g c) d
  | .wrDataChx c d => writeText "wr.data" (.chx c) d
  | .wrDataChxng0 c d => writeText "wr.data" (.chxExceptGroup0 c) d
  | .wrOffsetAll d => writeText "wr.offset" .allCh d
  | .wrOffsetGrp g d => writeText "wr.offset" (.singleGroup g) d
  | .wrOffsetCh g c d => writeText "wr.offset" (.singleCh g c) d
  | .wrOffsetChx c d => writeText "wr.offset" (.chx c) d
  | .wrOffsetChxng0 c d => writeText "wr.offset" (.chxExceptGroup0 c) d
  | .wrGainAll d => writeText "wr.gain" .allCh d
  | .wrGainGrp g d => writeText "wr.gain" (.singleGroup g) d
  | .wrGainCh g c d => writeText "wr.gain" (.singleCh g c) d
  | .wrGainChx c d => writeText "wr.gain" (.chx c) d
  | .wrGainChxng0 c d => writeText "wr.gain" (.chxExceptGroup0 c) d
  | .sfControl d => "sf.control " ++ immText d
  | .sfOfs0 d => "sf.ofs0 " ++ immText d
  | .sfOfs1 d => "sf.ofs1 " ++ immText d
  | .sfReadback d => "sf.readback " ++ immText d
  | .sfSelect g d => "sf.select " ++ numText g.val ++ ", " ++ immText d
  | .sfSelectAll d => "sf.select_all " ++ immText d
  | .rdX1a g c => "rd " ++ registerText (.x1a g c)
  | .rdX1b g c => "rd " ++ registerText (.x1b g c)
  | .rdC g c => "rd " ++ registerText (.c g c)
  | .rdM g c => "rd " ++ registerText (.m g c)
  | .rdControl => "rd " ++ registerText .control
  | .rdOfs0 => "rd " ++ registerText .ofs0
  | .rdOfs1 => "rd " ++ registerText .ofs1
  | .rdSelect g => "rd " ++ registerText (.select g)

end Sys2Proof.Machine
end

