-- ==== Sys2Proof/Tests/Slice0.lean ====
section
/-! SUPPORT. The model's own tests. Words and results are those of the spec's worked examples (40_frame_codec.md section 2,
41_transfer_function.md R172, 42_control_fsm.md, 95_test_vectors.md) or written out by hand from its encoding tables. The last
section shows, for every statement of Obligations.lean that has hypotheses, a state and operands that meet them. -/

namespace Sys2Proof.Tests

open Sys2Proof Sys2Proof.Machine

/-! ## Helpers -/

/-- VREF = 5 and the other defaults of 00_scope.md R9. -/
def defaults : Params := ⟨⟨4, 0⟩, .high, .zero, .away, .exact⟩

/-- The bytes 0x00, 0x12, 0x34 of the example of 42_control_fsm.md R194. -/
def bytes : Response := ⟨0x00#8, 0x12#8, 0x34#8⟩

/-- The creation state with the default parameters and these coming answers. -/
def created (xs : List Answer) : State := { State.reset with params := defaults, answers := xs }

/-- It, with one call waiting. -/
def calling (c : HostCall) (xs : List Answer) : State := { created xs with hostCalls := [c] }

/-- init waits, LDAC_INIT_SEQ is [High, Low], and the second LDAC drive will fail. -/
def initHighLow : State :=
  { calling (.op .init) [.ok bytes, .ok bytes, .ok bytes, .err] with
    params := { defaults with ldacInitSeq := .highLow } }

/-- The creation state with an operation in progress. -/
def during (o : HostOp) (k : Nat) (xs : List Answer) : State := { created xs with phase := .op o k }

def nextOf (o : Host.Outcome State Fault Refusal) : Option State :=
  match o with
  | .next t => some t
  | .fault _ => none
  | .refused _ => none

/-- The actions and replies recorded in the next state. -/
def actionsAfter (o : Host.Outcome State Fault Refusal) : Option (List (Action × Reply)) :=
  (nextOf o).map fun t => t.trace.map fun e => (e.action, e.reply)

def resultsAfter (o : Host.Outcome State Fault Refusal) : Option (List Result) := (nextOf o).map (·.results)

def stateTest (s : State) (p : State → Bool) : Bool :=
  match step s with
  | .next t => p t
  | .fault _ => false
  | .refused _ => false

/-! ## WellFormed: each check refuses an ill-formed term, and takes the last number in range -/

theorem test_wf_group_data : (Instr.wrDataGrp 5 0#16).wf = false ∧ (Instr.wrDataGrp 4 0#16).wf = true := by decide
theorem test_wf_ch_group_data : (Instr.wrDataCh 5 0 0#16).wf = false ∧ (Instr.wrDataCh 4 7 0#16).wf = true := by decide
theorem test_wf_ch_channel_data : (Instr.wrDataCh 0 8 0#16).wf = false := by decide
theorem test_wf_chx_data : (Instr.wrDataChx 8 0#16).wf = false ∧ (Instr.wrDataChx 7 0#16).wf = true := by decide
theorem test_wf_chxng0_data : (Instr.wrDataChxng0 8 0#16).wf = false ∧ (Instr.wrDataChxng0 7 0#16).wf = true := by decide
theorem test_wf_group_offset : (Instr.wrOffsetGrp 5 0#16).wf = false ∧ (Instr.wrOffsetGrp 4 0#16).wf = true := by decide
theorem test_wf_ch_group_offset : (Instr.wrOffsetCh 5 0 0#16).wf = false ∧ (Instr.wrOffsetCh 4 7 0#16).wf = true := by decide
theorem test_wf_ch_channel_offset : (Instr.wrOffsetCh 0 8 0#16).wf = false := by decide
theorem test_wf_chx_offset : (Instr.wrOffsetChx 8 0#16).wf = false ∧ (Instr.wrOffsetChx 7 0#16).wf = true := by decide
theorem test_wf_chxng0_offset : (Instr.wrOffsetChxng0 8 0#16).wf = false ∧ (Instr.wrOffsetChxng0 7 0#16).wf = true := by decide
theorem test_wf_group_gain : (Instr.wrGainGrp 5 0#16).wf = false ∧ (Instr.wrGainGrp 4 0#16).wf = true := by decide
theorem test_wf_ch_group_gain : (Instr.wrGainCh 5 0 0#16).wf = false ∧ (Instr.wrGainCh 4 7 0#16).wf = true := by decide
theorem test_wf_ch_channel_gain : (Instr.wrGainCh 0 8 0#16).wf = false := by decide
theorem test_wf_chx_gain : (Instr.wrGainChx 8 0#16).wf = false ∧ (Instr.wrGainChx 7 0#16).wf = true := by decide
theorem test_wf_chxng0_gain : (Instr.wrGainChxng0 8 0#16).wf = false ∧ (Instr.wrGainChxng0 7 0#16).wf = true := by decide

/-! ## Decode: one word of every row, bit by bit, from the examples of 40_frame_codec.md R127 to R155 -/

theorem test_decode_wrDataAll : decodeInstr 0b110000001010010110100101#24 = .ok (.wrDataAll 0xA5A5#16) := by decide
theorem test_decode_wrDataGrp : decodeInstr 0b110000111010010110100101#24 = .ok (.wrDataGrp 2 0xA5A5#16) := by decide
theorem test_decode_wrDataCh : decodeInstr 0b111001111010010110100101#24 = .ok (.wrDataCh 3 7 0xA5A5#16) := by decide
theorem test_decode_wrDataChx : decodeInstr 0b111101011010010110100101#24 = .ok (.wrDataChx 5 0xA5A5#16) := by decide
theorem test_decode_wrDataChxng0 : decodeInstr 0b111110101010010110100101#24 = .ok (.wrDataChxng0 2 0xA5A5#16) := by decide
theorem test_decode_wrOffsetAll : decodeInstr 0b100000001010010110100101#24 = .ok (.wrOffsetAll 0xA5A5#16) := by decide
theorem test_decode_wrOffsetGrp : decodeInstr 0b100000111010010110100101#24 = .ok (.wrOffsetGrp 2 0xA5A5#16) := by decide
theorem test_decode_wrOffsetCh : decodeInstr 0b101001111010010110100101#24 = .ok (.wrOffsetCh 3 7 0xA5A5#16) := by decide
theorem test_decode_wrOffsetChx : decodeInstr 0b101101011010010110100101#24 = .ok (.wrOffsetChx 5 0xA5A5#16) := by decide
theorem test_decode_wrOffsetChxng0 : decodeInstr 0b101110101010010110100101#24 = .ok (.wrOffsetChxng0 2 0xA5A5#16) := by decide
theorem test_decode_wrGainAll : decodeInstr 0b010000001010010110100101#24 = .ok (.wrGainAll 0xA5A5#16) := by decide
theorem test_decode_wrGainGrp : decodeInstr 0b010000111010010110100101#24 = .ok (.wrGainGrp 2 0xA5A5#16) := by decide
theorem test_decode_wrGainCh : decodeInstr 0b011001111010010110100101#24 = .ok (.wrGainCh 3 7 0xA5A5#16) := by decide
theorem test_decode_wrGainChx : decodeInstr 0b011101011010010110100101#24 = .ok (.wrGainChx 5 0xA5A5#16) := by decide
theorem test_decode_wrGainChxng0 : decodeInstr 0b011110101010010110100101#24 = .ok (.wrGainChxng0 2 0xA5A5#16) := by decide
theorem test_decode_sfControl : decodeInstr 0b000000010000000000000100#24 = .ok (.sfControl 0x0004#16) := by decide
theorem test_decode_sfOfs0 : decodeInstr 0b000000100001010101010101#24 = .ok (.sfOfs0 0x1555#16) := by decide
theorem test_decode_sfOfs1 : decodeInstr 0b000000110001010101010101#24 = .ok (.sfOfs1 0x1555#16) := by decide
theorem test_decode_sfReadback : decodeInstr 0b000001010000000000000001#24 = .ok (.sfReadback 0x0001#16) := by decide
theorem test_decode_sfSelect : decodeInstr 0b000010010000000011111111#24 = .ok (.sfSelect 3 0x00FF#16) := by decide
theorem test_decode_sfSelectAll : decodeInstr 0b000010110000000000000000#24 = .ok (.sfSelectAll 0x0000#16) := by decide
theorem test_decode_rdX1a : decodeInstr 0b000001010000110100000000#24 = .ok (.rdX1a 2 2) := by decide
theorem test_decode_rdX1b : decodeInstr 0b000001010010010000000000#24 = .ok (.rdX1b 0 0) := by decide
theorem test_decode_rdC : decodeInstr 0b000001010100100000000000#24 = .ok (.rdC 1 0) := by decide
theorem test_decode_rdM : decodeInstr 0b000001010111011110000000#24 = .ok (.rdM 4 7) := by decide
theorem test_decode_rdControl : decodeInstr 0b000001011000000010000000#24 = .ok (.rdControl) := by decide
theorem test_decode_rdOfs0 : decodeInstr 0b000001011000000100000000#24 = .ok (.rdOfs0) := by decide
theorem test_decode_rdOfs1 : decodeInstr 0b000001011000000110000000#24 = .ok (.rdOfs1) := by decide
theorem test_decode_rdSelect : decodeInstr 0b000001011000010010000000#24 = .ok (.rdSelect 3) := by decide

/-- Addresses 8, 47, 48 and 63, the ends of the ranges (30_encoding.md R84). -/
theorem test_decode_range_ends : decodeInstr 0xC80000#24 = .ok (.wrDataCh 0 0 0#16) ∧
    decodeInstr 0xEF0000#24 = .ok (.wrDataCh 4 7 0#16) ∧ decodeInstr 0xF00000#24 = .ok (.wrDataChx 0 0#16) ∧
    decodeInstr 0xFF0000#24 = .ok (.wrDataChxng0 7 0#16) := by decide
/-- The examples of 40_frame_codec.md R156, and the dummy frame. -/
theorem test_decode_unrecognised : decodeInstr 0xC6A5A5#24 = .error (.unrecognised 3#2 6#6 0xA5A5#16) ∧
    decodeInstr 0x040000#24 = .error (.unrecognised 0#2 4#6 0#16) ∧
    decodeInstr 0x0C0000#24 = .error (.unrecognised 0#2 12#6 0#16) ∧
    decodeInstr dummyFrame = .error (.unrecognised 0#2 0#6 0#16) := by decide
/-- Fewer than three bytes are no frame. -/
theorem test_decode_truncated : decode [0xC0#8, 0xA5#8] = .error .truncated := by decide
theorem test_decode_rest :
    decode [0xF5#8, 0xA5#8, 0xA5#8, 0x01#8] = .ok (.wrDataChx 5 0xA5A5#16, [0x01#8]) := by decide
/-- Selectors of no register (30_encoding.md R96). -/
theorem test_selector_none : decodeSelector 0x8101#16 = none ∧ decodeSelector 0xA080#16 = none ∧
    decodeSelector 0x0380#16 = none ∧ decodeSelector 0x1800#16 = none ∧ decodeSelector 0x8200#16 = none ∧
    decodeSelector 0x8580#16 = none := by decide
theorem test_encode_write : encodeWrite .offset (.singleCh 3 7) 0xA5A5#16 = some 0xA7A5A5#24 ∧
    encodeWrite .special .allCh 0#16 = none ∧ encodeWrite .data (.singleGroup 5) 0#16 = none := by decide
theorem test_encode_pseudo : (Instr.rdM 4 7).encode = 0x057780#24 ∧
    (Instr.sfReadback 0x7780#16).encode = 0x057780#24 := by decide
/-- Bit 0 of the table's numbering is the frame's least significant bit. -/
theorem test_table_word : decodeTableWord 24 0xF5A5A5 = some (.wrDataChx 5 0xA5A5#16) := by decide
theorem test_wire_order : (Frame.wireBits 0x800001#24).head? = some true ∧
    (Frame.wireBits 0x400000#24).head? = some false ∧ (Frame.wireBits 0x800001#24).getLast? = some true := by decide
theorem test_asm : asmText (.wrDataChx 5 0xA5A5#16) = "wr.data chx(5), 0xA5A5" ∧ asmText (.rdM 4 7) = "rd m(4,7)" ∧
    asmText (.sfSelect 3 0x00FF#16) = "sf.select 3, 0x00FF" := by decide +kernel

/-! ## The meanings: the action of every instruction, and what a failed one does -/

theorem test_exec_wrDataAll :
    actionsAfter (exec (.wrDataAll 0xA5A5#16) (created [.ok bytes])) = some [(.busWrite 0xC0A5A5#24, .ok)] := by decide
theorem test_exec_wrDataGrp :
    actionsAfter (exec (.wrDataGrp 2 0xA5A5#16) (created [.ok bytes])) = some [(.busWrite 0xC3A5A5#24, .ok)] := by decide
theorem test_exec_wrDataCh :
    actionsAfter (exec (.wrDataCh 3 7 0xA5A5#16) (created [.ok bytes])) = some [(.busWrite 0xE7A5A5#24, .ok)] := by decide
theorem test_exec_wrDataChx :
    actionsAfter (exec (.wrDataChx 5 0xA5A5#16) (created [.ok bytes])) = some [(.busWrite 0xF5A5A5#24, .ok)] := by decide
theorem test_exec_wrDataChxng0 :
    actionsAfter (exec (.wrDataChxng0 2 0xA5A5#16) (created [.ok bytes])) = some [(.busWrite 0xFAA5A5#24, .ok)] := by decide
theorem test_exec_wrOffsetAll :
    actionsAfter (exec (.wrOffsetAll 0xA5A5#16) (created [.ok bytes])) = some [(.busWrite 0x80A5A5#24, .ok)] := by decide
theorem test_exec_wrOffsetGrp :
    actionsAfter (exec (.wrOffsetGrp 2 0xA5A5#16) (created [.ok bytes])) = some [(.busWrite 0x83A5A5#24, .ok)] := by decide
theorem test_exec_wrOffsetCh :
    actionsAfter (exec (.wrOffsetCh 3 7 0xA5A5#16) (created [.ok bytes])) = some [(.busWrite 0xA7A5A5#24, .ok)] := by decide
theorem test_exec_wrOffsetChx :
    actionsAfter (exec (.wrOffsetChx 5 0xA5A5#16) (created [.ok bytes])) = some [(.busWrite 0xB5A5A5#24, .ok)] := by decide
theorem test_exec_wrOffsetChxng0 :
    actionsAfter (exec (.wrOffsetChxng0 2 0xA5A5#16) (created [.ok bytes])) = some [(.busWrite 0xBAA5A5#24, .ok)] := by decide
theorem test_exec_wrGainAll :
    actionsAfter (exec (.wrGainAll 0xA5A5#16) (created [.ok bytes])) = some [(.busWrite 0x40A5A5#24, .ok)] := by decide
theorem test_exec_wrGainGrp :
    actionsAfter (exec (.wrGainGrp 2 0xA5A5#16) (created [.ok bytes])) = some [(.busWrite 0x43A5A5#24, .ok)] := by decide
theorem test_exec_wrGainCh :
    actionsAfter (exec (.wrGainCh 3 7 0xA5A5#16) (created [.ok bytes])) = some [(.busWrite 0x67A5A5#24, .ok)] := by decide
theorem test_exec_wrGainChx :
    actionsAfter (exec (.wrGainChx 5 0xA5A5#16) (created [.ok bytes])) = some [(.busWrite 0x75A5A5#24, .ok)] := by decide
theorem test_exec_wrGainChxng0 :
    actionsAfter (exec (.wrGainChxng0 2 0xA5A5#16) (created [.ok bytes])) = some [(.busWrite 0x7AA5A5#24, .ok)] := by decide
theorem test_exec_sfControl :
    actionsAfter (exec (.sfControl 0x0004#16) (created [.ok bytes])) = some [(.busWrite 0x010004#24, .ok)] := by decide
theorem test_exec_sfOfs0 :
    actionsAfter (exec (.sfOfs0 0x1555#16) (created [.ok bytes])) = some [(.busWrite 0x021555#24, .ok)] := by decide
theorem test_exec_sfOfs1 :
    actionsAfter (exec (.sfOfs1 0x1555#16) (created [.ok bytes])) = some [(.busWrite 0x031555#24, .ok)] := by decide
theorem test_exec_sfReadback :
    actionsAfter (exec (.sfReadback 0x0001#16) (created [.ok bytes])) = some [(.busRead 0x050001#24, .bytes bytes)] := by decide
theorem test_exec_sfSelect :
    actionsAfter (exec (.sfSelect 3 0x00FF#16) (created [.ok bytes])) = some [(.busWrite 0x0900FF#24, .ok)] := by decide
theorem test_exec_sfSelectAll :
    actionsAfter (exec (.sfSelectAll 0x0000#16) (created [.ok bytes])) = some [(.busWrite 0x0B0000#24, .ok)] := by decide
theorem test_exec_rdX1a :
    actionsAfter (exec (.rdX1a 2 2) (created [.ok bytes])) = some [(.busRead 0x050D00#24, .bytes bytes)] := by decide
theorem test_exec_rdX1b :
    actionsAfter (exec (.rdX1b 0 0) (created [.ok bytes])) = some [(.busRead 0x052400#24, .bytes bytes)] := by decide
theorem test_exec_rdC :
    actionsAfter (exec (.rdC 1 0) (created [.ok bytes])) = some [(.busRead 0x054800#24, .bytes bytes)] := by decide
theorem test_exec_rdM :
    actionsAfter (exec (.rdM 4 7) (created [.ok bytes])) = some [(.busRead 0x057780#24, .bytes bytes)] := by decide
theorem test_exec_rdControl :
    actionsAfter (exec (.rdControl) (created [.ok bytes])) = some [(.busRead 0x058080#24, .bytes bytes)] := by decide
theorem test_exec_rdOfs0 :
    actionsAfter (exec (.rdOfs0) (created [.ok bytes])) = some [(.busRead 0x058100#24, .bytes bytes)] := by decide
theorem test_exec_rdOfs1 :
    actionsAfter (exec (.rdOfs1) (created [.ok bytes])) = some [(.busRead 0x058180#24, .bytes bytes)] := by decide
theorem test_exec_rdSelect :
    actionsAfter (exec (.rdSelect 3) (created [.ok bytes])) = some [(.busRead 0x058480#24, .bytes bytes)] := by decide

theorem test_exec_failed_write : resultsAfter (exec (.sfControl 0xFFFF#16) (created [.err])) =
    some [.hardwareIO (.busWrite 0x01FFFF#24) 0] := by decide
/-- The response's b0 is ignored (20_memory.md R64). -/
theorem test_exec_read_value : resultsAfter (exec .rdOfs0 (created [.ok ⟨0xFF#8, 0x12#8, 0x34#8⟩])) =
    some [.ok (.response 0x1234#16)] := by decide
/-- Without its check, group 5 would spell the `chx` codes (40_frame_codec.md R129). -/
theorem test_exec_out_of_range : actionsAfter (exec (.wrDataCh 5 0 0#16) (created [.ok bytes])) = some [] ∧
    resultsAfter (exec (.wrDataCh 5 0 0#16) (created [.ok bytes])) = some [.general .addressOutOfRange] := by decide
/-- A group write is stated to write the eight channels of its group (20_memory.md R51, R74). -/
theorem test_reaction_group : frameReaction 0xC3A5A5#24 =
    .writeInput [(2, 0), (2, 1), (2, 2), (2, 3), (2, 4), (2, 5), (2, 6), (2, 7)] 0xA5A5#16 := by decide
/-- A selector of no register stages nothing that NDS states (93_implementation_defined.md I3). -/
theorem test_reaction_no_register : frameReaction 0x050001#24 = .nothingStated := by decide

/-! ## One step -/

theorem test_step_hand_frame : actionsAfter (step (calling (.frame 0xF5A5A5#24) [.ok bytes])) =
    some [(.busWrite 0xF5A5A5#24, .ok)] := by decide
theorem test_step_withFetchWord : actionsAfter (step ((created [.ok bytes]).withFetchWord 24 0xF5A5A5)) =
    some [(.busWrite 0xF5A5A5#24, .ok)] := by decide
theorem test_step_refuses_unrecognised :
    step (calling (.frame 0xC6A5A5#24) []) = .refused (.unrecognisedFrame 3#2 6#6 0xA5A5#16) := by rfl
theorem test_step_starts : stateTest (calling (.op .readAll) []) (fun t => t.phase == .op .readAll 0) = true := by
  decide
theorem test_step_general : resultsAfter (step (calling (.op (.setCode 0#16 (.chx 8))) [])) =
    some [.general .addressOutOfRange] := by decide
/-- The target is checked before the voltage (60_exceptions.md R234); 0x7FF0… is +∞. -/
theorem test_step_check_order :
    resultsAfter (step (calling (.op (.setVoltage 0x7FF0000000000000#64 (.chx 8))) [])) =
      some [.general .addressOutOfRange] ∧
    resultsAfter (step (calling (.op (.setVoltage 0x7FF0000000000000#64 (.chx 7))) [])) =
      some [.general .nonFiniteVoltage] := by decide
theorem test_step_set_code : actionsAfter (step (during (.setCode 0xA5A5#16 (.chx 5)) 0 [.ok bytes])) =
    some [(.busWrite 0xF5A5A5#24, .ok)] := by decide
/-- 42_control_fsm.md R190's example: 0.0 V to all channels is code 0xD550. -/
theorem test_step_set_voltage : actionsAfter (step (during (.setVoltage 0#64 .allCh) 0 [.ok bytes])) =
    some [(.busWrite 0xC0D550#24, .ok)] := by decide +kernel
theorem test_step_set_gain : actionsAfter (step (during (.setGain 0x3FFF#16) 0 [.ok bytes])) =
    some [(.busWrite 0x403FFF#24, .ok)] := by decide
theorem test_step_set_offset : actionsAfter (step (during (.setOffset 0x2000#16) 0 [.ok bytes])) =
    some [(.busWrite 0x802000#24, .ok)] := by decide
theorem test_step_clear : stateTest (during .clear 0 [.ok bytes])
    (fun t => t.lines.clr == .low && t.trace.length == 1) = true := by decide
theorem test_step_restore_clear : stateTest (during .restoreClear 0 [.ok bytes]) (fun t => t.lines.clr == .high) = true := by
  decide
theorem test_step_ldac : stateTest (during .clearLdac 0 [.ok bytes]) (fun t => t.lines.ldac == .low) = true ∧
    stateTest (during .setLdac 0 [.ok bytes]) (fun t => t.lines.ldac == .high) = true := by decide
theorem test_step_failed_drive : stateTest (during .setLdac 0 [.err])
    (fun t => t.lines.ldac == .unknown && t.phase == .idle &&
      t.results == [.hardwareIO (.lineDrive .ldac .high) 0]) = true := by decide
theorem test_step_reset_edge : stateTest
    { during .reset 1 [.ok bytes] with lines := ⟨.low, .unknown, .unknown⟩ }
    (fun t => t.lines.reset == .high && t.trace.map (·.reactions) == [[.reloadDefaults]]) = true := by decide
theorem test_step_init_third : actionsAfter (step (during .init 2 [.ok bytes])) =
    some [(.lineDrive .ldac .high, .ok)] := by decide
theorem test_step_get_vref : resultsAfter (step (during .getVref 0 [])) = some [.ok (.vref ⟨4, 0⟩)] := by decide
theorem test_step_get_reg : resultsAfter (step (during .getReg 0 [])) = some [.ok (.mirror Mirror.creation)] := by
  decide +kernel
/-- The example of 42_control_fsm.md R194: the answer to request 0 goes to x1a[0]. -/
theorem test_step_read_all_first : stateTest (during .readAll 0 [.ok bytes])
    (fun t => t.mirror.x1a[0] == 0x1234#14 && t.mirror.x1b[0] == 0x1555#14) = true := by decide +kernel
/-- With READBACK_SHIFT = 1 the answer to request 1 goes there, and the first is discarded. -/
theorem test_step_read_all_shift :
    stateTest { during .readAll 1 [.ok bytes] with params := { defaults with readbackShift := .one } }
      (fun t => t.mirror.x1a[0] == 0x1234#14 && t.mirror.x1b[0] == 0x1555#14) = true ∧
    stateTest { during .readAll 0 [.ok bytes] with params := { defaults with readbackShift := .one } }
      (fun t => t.mirror == Mirror.creation) = true := by decide +kernel
/-- A response above 14 bits is truncated (10_state.md R31): 0xFFFF is stored as 0x3FFF, 0x8000 as 0. -/
theorem test_truncation : trunc14 0xFFFF#16 = 0x3FFF#14 ∧ trunc14 0x8000#16 = 0x0000#14 := by decide
theorem test_executor_blocks : stateTest { calling (.op .init) [] with executorHoldsLock := true }
    (fun t => t.phase == .idle && t.hostCalls == [.op .init]) = true := by decide
theorem test_executor_stops :
    stateTest { calling (.op .init) [] with executorHoldsLock := true, executorCalls := [.stop] }
      (fun t => !t.executorHoldsLock && t.hostCalls == [.op .init]) = true := by decide
/-- Ended; a call waiting; an operation in progress; an Executor that holds the lock with nothing left to do. -/
theorem test_ended : (created []).ended = true ∧ (calling (.op .init) []).ended = false ∧
    (during .init 0 []).ended = false ∧ { created [] with executorHoldsLock := true }.ended = true := by decide

/-! ## The converter: 41_transfer_function.md R172 and R164 -/

theorem test_code_one_volt : voltageToCode defaults Mirror.creation 1 0 0 = 0x0883#16 ∧
    voltageToCode defaults Mirror.creation (-1) 0 0 = 0xA21D#16 := by decide +kernel
theorem test_code_volts : voltageToCode defaults Mirror.creation (5 / 2) 0 0 = 0x5550#16 ∧
    voltageToCode defaults Mirror.creation 5 0 0 = 0xD550#16 := by decide +kernel
theorem test_code_tie : voltageToCode defaults Mirror.creation (5 / 131072) 0 0 = 0xD551#16 ∧
    voltageToCode { defaults with roundTies := .even } Mirror.creation (5 / 131072) 0 0 = 0xD550#16 := by decide +kernel
theorem test_round_ties : roundRat .away (5 / 2) = 3 ∧ roundRat .away (-5 / 2) = -3 ∧ roundRat .even (5 / 2) = 2 ∧
    roundRat .even (-5 / 2) = -2 := by decide +kernel
/-- At zero volts and the creation trims the sizes sum to (21844 + 32768 + 8192) * 4 = 251216. -/
theorem test_binary64_error : binary64Error 0 5 0x1555 0x2000 0x3FFF = 12 * 251216 / 2 ^ 53 ∧
    confine 1 (1 / 2) = 1 / 2 ∧ confine 1 3 = 1 ∧ confine 1 (-3) = -1 := by decide +kernel
theorem test_wrap : wrapCode (-1) = 0xFFFF#16 ∧ wrapCode 65536 = 0#16 := by decide
/-- 0x3FF0… is 1.0, 0xC00C… is −3.5, 1 is the least subnormal. -/
theorem test_finite : finiteVoltage 0x3FF0000000000000#64 = some 1 ∧
    finiteVoltage 0xC00C000000000000#64 = some (-7 / 2) ∧ finiteVoltage 1#64 = some (1 / 2 ^ 1074) := by decide +kernel
theorem test_not_finite : finiteVoltage 0x7FF8000000000000#64 = none ∧ finiteVoltage 0xFFF0000000000000#64 = none := by
  decide

/-! ## Witnesses: the hypotheses of each statement can be met -/

theorem witness_SpecialFunctionCodes :
    (0#6 = 0#6 ∨ 0#6 = 4#6 ∨ 12 ≤ (0#6).toNat) ∧ (4#6 = 0#6 ∨ 4#6 = 4#6 ∨ 12 ≤ (4#6).toNat) ∧
    (12#6 = 0#6 ∨ 12#6 = 4#6 ∨ 12 ≤ (12#6).toNat) ∧ (63#6 = 0#6 ∨ 63#6 = 4#6 ∨ 12 ≤ (63#6).toNat) ∧
    SpecialFunctionAddress.select 4 ≠ .readBack := by decide
theorem witness_ChannelCodesPartition : (4 < 5) ∧ (7 < 8) ∧ (ChannelAddress.singleCh 4 7).wf = true ∧
    (63#6 ≠ 6#6 ∧ 63#6 ≠ 7#6) := by decide
theorem witness_EncodersInjective :
    encodeWrite .gain (.chxExceptGroup0 7) 0xFFFF#16 = some 0x7FFFFF#24 ∧
    encodeSpecial (.select 4) 0#16 = encodeSpecial (.select 4) 0#16 ∧ sel (.m 4 7) = sel (.m 4 7) := by decide
theorem witness_DecodeEncodeAgree : (Instr.wrGainCh 4 7 0xFFFF#16).wf = true ∧
    (Instr.sfReadback 0x8100#16).wf = true := by decide
theorem witness_DecodedFramesReencode : recognised 0x057780#24 ∧ decodeInstr 0x057780#24 = .ok (.rdM 4 7) := by
  have h : decodeFrame 0x057780#24 = .special .readBack 0x7780#16 := by decide
  exact ⟨fun m a d => by rw [h]; simp, by decide⟩
theorem witness_OutOfRangeWriteRaisesGeneral : (Instr.wrDataGrp 5 0#16).wf = false ∧
    (Instr.wrOffsetCh 0 8 0#16).wf = false ∧ (Instr.wrGainChxng0 8 0#16).wf = false := by decide
theorem witness_InstructionsKeepBlockState :
    (∃ t, exec (.wrDataChx 5 0xA5A5#16) (created [.ok bytes]) = .next t) ∧
    ∀ k, (created [.ok bytes]).phase ≠ .op .readAll k :=
  ⟨⟨_, rfl⟩, fun k => by simp [created, State.reset]⟩
theorem witness_StepRunsDecodedFrame :
    (calling (.frame 0xF5A5A5#24) []).Ready (.frame 0xF5A5A5#24) [] ∧
    decodeInstr 0xF5A5A5#24 = .ok (.wrDataChx 5 0xA5A5#16) ∧
    decodeTableWord 24 0xF5A5A5 = some (.wrDataChx 5 0xA5A5#16) := ⟨⟨rfl, rfl, rfl⟩, by decide, by decide⟩
/-- Both clauses are met: a frame of the table, and one of no row. -/
theorem witness_StepAnswersUnlessUnrecognised :
    (∃ t, step (calling (.frame 0xF5A5A5#24) []) = .next t) ∧
    step (calling (.frame 0xC6A5A5#24) []) = .refused (.unrecognisedFrame 3#2 6#6 0xA5A5#16) := ⟨⟨_, rfl⟩, rfl⟩
/-- The last request of read_all, and the one frame of set_code. -/
theorem witness_OperationFramesAreInstructions :
    ((during .readAll 162 []).phase = .op .readAll 162 ∧ operandCheck .readAll = none ∧
      (actionsOf defaults Mirror.creation .readAll)[162]? = some (.busRead 0x058180#24) ∧
      actionFrame (.busRead 0x058180#24) = some 0x058180#24) ∧
    operandCheck (.setCode 0#16 (.chx 7)) = none ∧
    (actionsOf defaults Mirror.creation (.setCode 0#16 (.chx 7)))[0]? = some (.busWrite 0xF70000#24) :=
  ⟨⟨rfl, rfl, by decide +kernel, rfl⟩, by decide, by decide⟩
theorem witness_LineDriveSetsItsLine :
    (created [.ok bytes]).nextAnswer (.lineDrive .clr .low) = .ok bytes ∧
    (created [.err]).nextAnswer (.lineDrive .clr .low) = .err ∧ Line.reset ≠ .clr := ⟨rfl, rfl, by decide⟩
theorem witness_OperationRunsItsActions :
    (calling (.op .reset) [.ok bytes, .ok bytes]).Ready (.op .reset) [] ∧ operandCheck .reset = none ∧
    (∀ k a, (actionsOf defaults Mirror.creation .reset)[k]? = some a →
      ∃ r, (calling (.op .reset) [.ok bytes, .ok bytes]).answerAt k a = .ok r) ∧
    (actionsOf defaults Mirror.creation .reset)[1]? = some (.lineDrive .reset .high) ∧
    (calling (.op .reset) [.ok bytes, .err]).answerAt 1 (.lineDrive .reset .high) = .err ∧
    (∀ k b, k < 1 → (actionsOf defaults Mirror.creation .reset)[k]? = some b →
      ∃ r, (calling (.op .reset) [.ok bytes, .err]).answerAt k b = .ok r) := by
  refine ⟨⟨rfl, rfl, rfl⟩, rfl, fun k a h => ?_, rfl, rfl, fun k b hk _ => ?_⟩
  · match k with
    | 0 => exact ⟨bytes, rfl⟩
    | 1 => exact ⟨bytes, rfl⟩
    | k + 2 => simp [actionsOf] at h
  · have : k = 0 := by omega
    subst this
    exact ⟨bytes, rfl⟩
theorem witness_LdacOperations :
    (calling (.op .setLdac) [.ok bytes]).Ready (.op .setLdac) [] ∧
    (calling (.op .clearLdac) [.err]).Ready (.op .clearLdac) [] ∧
    (calling (.op .setLdac) [.ok bytes]).nextAnswer (.lineDrive .ldac .high) = .ok bytes ∧
    (calling (.op .setLdac) [.err]).nextAnswer (.lineDrive .ldac .high) = .err ∧
    (calling (.op .clearLdac) [.ok bytes]).nextAnswer (.lineDrive .ldac .low) = .ok bytes ∧
    (calling (.op .clearLdac) [.err]).nextAnswer (.lineDrive .ldac .low) = .err :=
  ⟨⟨rfl, rfl, rfl⟩, ⟨rfl, rfl, rfl⟩, rfl, rfl, rfl, rfl⟩
theorem witness_ClearOperations :
    (calling (.op .clear) [.ok bytes]).Ready (.op .clear) [] ∧
    (calling (.op .clear) [.ok bytes]).nextAnswer (.lineDrive .clr .low) = .ok bytes ∧
    (calling (.op .restoreClear) [.err]).Ready (.op .restoreClear) [] ∧
    (calling (.op .restoreClear) [.err]).nextAnswer (.lineDrive .clr .high) = .err :=
  ⟨⟨rfl, rfl, rfl⟩, rfl, ⟨rfl, rfl, rfl⟩, rfl⟩
theorem witness_ResetPulsesLine :
    (calling (.op .reset) [.ok bytes, .err]).Ready (.op .reset) [] ∧
    (calling (.op .reset) [.err]).answerAt 0 (.lineDrive .reset .low) = .err ∧
    (calling (.op .reset) [.ok bytes, .ok bytes]).answerAt 1 (.lineDrive .reset .high) = .ok bytes ∧
    (calling (.op .reset) [.ok bytes, .err]).answerAt 0 (.lineDrive .reset .low) = .ok bytes ∧
    (calling (.op .reset) [.ok bytes, .err]).answerAt 1 (.lineDrive .reset .high) = .err :=
  ⟨⟨rfl, rfl, rfl⟩, rfl, rfl, rfl, rfl⟩
theorem witness_InitDrivesLines :
    (calling (.op .init) [.ok bytes, .ok bytes, .ok bytes]).Ready (.op .init) [] ∧
    (∀ k a, (actionsOf defaults Mirror.creation .init)[k]? = some a →
      ∃ r, (calling (.op .init) [.ok bytes, .ok bytes, .ok bytes]).answerAt k a = .ok r) ∧
    (calling (.op .init) [.err]).answerAt 0 (.lineDrive .reset .high) = .err ∧
    (calling (.op .init) [.ok bytes, .err]).answerAt 0 (.lineDrive .reset .high) = .ok bytes ∧
    (calling (.op .init) [.ok bytes, .err]).answerAt 1 (.lineDrive .clr .high) = .err := by
  refine ⟨⟨rfl, rfl, rfl⟩, fun k a h => ?_, rfl, rfl, rfl⟩
  match k with
  | 0 => exact ⟨bytes, rfl⟩
  | 1 => exact ⟨bytes, rfl⟩
  | 2 => exact ⟨bytes, rfl⟩
  | k + 3 => simp [actionsOf, defaults, ldacDrives] at h
/-- The last clause at j = 0 and, with a sequence of two drives, at j = 1. -/
theorem witness_InitDrivesLines_ldac :
    ((ldacDrives defaults.ldacInitSeq)[0]? = some .high ∧
      (∀ k a, k < 2 + 0 → ∃ r, (calling (.op .init) [.ok bytes, .ok bytes, .err]).answerAt k a = .ok r) ∧
      (calling (.op .init) [.ok bytes, .ok bytes, .err]).answerAt (2 + 0) (.lineDrive .ldac .high) = .err) ∧
    (initHighLow.Ready (.op .init) [] ∧ (ldacDrives initHighLow.params.ldacInitSeq)[1]? = some .low ∧
      (∀ k a, k < 2 + 1 → ∃ r, initHighLow.answerAt k a = .ok r) ∧
      initHighLow.answerAt (2 + 1) (.lineDrive .ldac .low) = .err) := by
  refine ⟨⟨rfl, fun k a hk => ?_, rfl⟩, ⟨rfl, rfl, rfl⟩, rfl, fun k a hk => ?_, rfl⟩
  · match k with
    | 0 => exact ⟨bytes, rfl⟩
    | 1 => exact ⟨bytes, rfl⟩
  · match k with
    | 0 => exact ⟨bytes, rfl⟩
    | 1 => exact ⟨bytes, rfl⟩
    | 2 => exact ⟨bytes, rfl⟩
theorem witness_SetCodeSendsOneDataFrame :
    (calling (.op (.setCode 0xFFFF#16 (.singleCh 4 7))) [.ok bytes]).Ready (.op (.setCode 0xFFFF#16 (.singleCh 4 7))) [] ∧
    (ChannelAddress.singleCh 4 7).wf = true ∧ (ChannelAddress.singleCh 4 8).wf = false ∧
    (∀ f, (calling (.op (.setCode 0xFFFF#16 (.singleCh 4 7))) [.ok bytes]).nextAnswer (.busWrite f) = .ok bytes) ∧
    (∀ f, (calling (.op (.setCode 0xFFFF#16 (.singleCh 4 7))) [.err]).nextAnswer (.busWrite f) = .err) :=
  ⟨⟨rfl, rfl, rfl⟩, by decide, by decide, fun _ => rfl, fun _ => rfl⟩
theorem witness_SetVoltageConvertsAndSends :
    (calling (.op (.setVoltage 0x3FF0000000000000#64 (.chx 7))) [.ok bytes]).Ready
      (.op (.setVoltage 0x3FF0000000000000#64 (.chx 7))) [] ∧
    (ChannelAddress.chx 7).wf = true ∧ (ChannelAddress.chx 8).wf = false ∧
    finiteVoltage 0x3FF0000000000000#64 = some 1 ∧ finiteVoltage 0x7FF0000000000000#64 = none ∧
    defaults.vtcArith = .exact ∧
    (∀ f, (calling (.op (.setVoltage 0x3FF0000000000000#64 (.chx 7))) [.ok bytes]).nextAnswer (.busWrite f) = .ok bytes) ∧
    (∀ f, (calling (.op (.setVoltage 0x3FF0000000000000#64 (.chx 7))) [.err]).nextAnswer (.busWrite f) = .err) :=
  ⟨⟨rfl, rfl, rfl⟩, by decide, by decide, by decide +kernel, by decide, rfl, fun _ => rfl, fun _ => rfl⟩
theorem witness_SetGainAndOffsetBroadcast :
    (calling (.op (.setGain 0xFFFF#16)) [.ok bytes]).Ready (.op (.setGain 0xFFFF#16)) [] ∧
    (calling (.op (.setOffset 0xFFFF#16)) [.err]).Ready (.op (.setOffset 0xFFFF#16)) [] ∧
    (∀ f, (calling (.op (.setGain 0xFFFF#16)) [.ok bytes]).nextAnswer (.busWrite f) = .ok bytes) ∧
    (∀ f, (calling (.op (.setOffset 0xFFFF#16)) [.err]).nextAnswer (.busWrite f) = .err) :=
  ⟨⟨rfl, rfl, rfl⟩, ⟨rfl, rfl, rfl⟩, fun _ => rfl, fun _ => rfl⟩
theorem witness_GetVrefReturnsParameter : (calling (.op .getVref) []).Ready (.op .getVref) [] := ⟨rfl, rfl, rfl⟩
theorem witness_GetRegReturnsMirror : (calling (.op .getReg) []).Ready (.op .getReg) [] := ⟨rfl, rfl, rfl⟩
theorem witness_ScanFilesEachResponse : 163 ≤ 163 ∧ ((ReadbackShift.zero = .zero ∧ 0 = 0) ∨ (ReadbackShift.zero = .one ∧ 0 = 1)) ∧
    ((ReadbackShift.one = .zero ∧ 1 = 0) ∨ (ReadbackShift.one = .one ∧ 1 = 1)) := by decide
theorem answerAt_scripted {s : State} {n : Nat} {x : Answer} (h : s.answers[n]? = some x) (a : Action) :
    s.answerAt n a = x := by
  unfold State.answerAt
  rw [h]

theorem witness_ReadAllRefreshesMirror :
    (calling (.op .readAll) (List.replicate 163 (.ok bytes))).Ready (.op .readAll) [] ∧
    ∀ k < 163, (calling (.op .readAll) (List.replicate 163 (.ok bytes))).answerAt k (readAction k) = .ok bytes :=
  ⟨⟨rfl, rfl, rfl⟩, fun k hk =>
    answerAt_scripted (by show (List.replicate 163 (Answer.ok bytes))[k]? = _; rw [List.getElem?_replicate, if_pos hk]) _⟩
/-- A failure at the first request, and at the last. -/
theorem witness_ReadAllFailureKeepsPartialMirror :
    (calling (.op .readAll) [.err]).Ready (.op .readAll) [] ∧
    (calling (.op .readAll) [.err]).answerAt 0 (readAction 0) = .err ∧
    (calling (.op .readAll) (List.replicate 162 (.ok bytes) ++ [.err])).Ready (.op .readAll) [] ∧
    (∀ j < 162,
      (calling (.op .readAll) (List.replicate 162 (.ok bytes) ++ [.err])).answerAt j (readAction j) = .ok bytes) ∧
    (calling (.op .readAll) (List.replicate 162 (.ok bytes) ++ [.err])).answerAt 162 (readAction 162) = .err := by
  refine ⟨⟨rfl, rfl, rfl⟩, rfl, ⟨rfl, rfl, rfl⟩, fun j hj => ?_, ?_⟩
  · refine answerAt_scripted ?_ _
    show (List.replicate 162 (Answer.ok bytes) ++ [.err])[j]? = _
    rw [List.getElem?_append_left (by rw [List.length_replicate]; exact hj), List.getElem?_replicate, if_pos hj]
  · refine answerAt_scripted ?_ _
    show (List.replicate 162 (Answer.ok bytes) ++ [.err])[162]? = _
    rw [List.getElem?_append_right (by rw [List.length_replicate]), List.length_replicate]
    rfl
theorem witness_RepresentativePairs : (ChannelAddress.chxExceptGroup0 7).wf = true := by decide
theorem witness_SpanOffsetByGroup : (0 : GroupNo) = 0 ∧ (4 : GroupNo) ≠ 0 := by decide
theorem witness_UnwrappedValueMonotone : (-1 : Rat) < 1 ∧ (1 / 2 : Rat) ≤ 1 / 2 := by decide +kernel
/-- An integer is no tie, and lies half or more from each. -/
theorem half_le_abs_int_sub_tie (n k : Int) : 1 / 2 ≤ |(n : Rat) - ((k : Rat) + 1 / 2)| := by
  rcases lt_or_ge k n with h | h
  · have : (k : Rat) + 1 ≤ n := by exact_mod_cast h
    exact le_trans (by linarith) (le_abs_self _)
  · have : (n : Rat) ≤ k := by exact_mod_cast h
    exact le_trans (by linarith) (neg_le_abs _)

/-- Ties to even; ties away from zero at the negative X of vector V6 and at X = 185680. -/
theorem witness_ConverterPeriod : defaults.vtcArith = .exact ∧ defaults.roundTies = .away ∧
    { defaults with roundTies := .even }.roundTies = RoundTies.even ∧
    (∀ k : Int, -65536 ≤ k → k < 0 →
      unrounded (-15) (voltsValue defaults.vref) 0x1555 0x2000 0x3FFF ≠ (k : Rat) + 1 / 2) ∧
    (∀ k : Int, -65536 ≤ k → k < 0 →
      unrounded 0 (voltsValue defaults.vref) 0x1555 0x2000 0x3FFF ≠ (k : Rat) + 1 / 2) := by
  refine ⟨rfl, rfl, rfl, fun k _ _ => ?_, fun k _ _ => ?_⟩
  · rw [show unrounded (-15) (voltsValue defaults.vref) 0x1555 0x2000 0x3FFF = ((-10928 : Int) : Rat) by decide +kernel]
    exact fun h => absurd (half_le_abs_int_sub_tie (-10928) k) (by rw [h]; simp)
  · rw [show unrounded 0 (voltsValue defaults.vref) 0x1555 0x2000 0x3FFF = ((185680 : Int) : Rat) by decide +kernel]
    exact fun h => absurd (half_le_abs_int_sub_tie 185680 k) (by rw [h]; simp)
theorem witness_ZeroVoltsAndFiniteness : defaults.vtcArith = .exact := rfl
/-- A state in the middle of read_all that meets the invariant, and steps. -/
theorem witness_StepKeepsInvariant :
    (during .readAll 0 [.ok bytes]).Inv ∧ ∃ t, step (during .readAll 0 [.ok bytes]) = .next t := by
  refine ⟨⟨rfl, rfl, ⟨rfl, Nat.zero_le _⟩, rfl, fun e he => ?_⟩, ⟨_, rfl⟩⟩
  simp [during, created, State.reset] at he
/-- The step of each whole-machine rule: one that writes the mirror, one that moves a line, one that fails, one that raises
General, one that gives the lock up and one that takes it. -/
theorem witness_OnlyReadAllWritesMirror :
    stateTest (during .readAll 0 [.ok bytes]) (fun t => t.mirror != Mirror.creation) = true := by decide +kernel
theorem witness_LinesMoveOnlyByTheirOperations :
    stateTest (during .init 0 [.ok bytes]) (fun t => t.lines.reset != .unknown) = true ∧
    stateTest (during .init 1 [.ok bytes]) (fun t => t.lines.clr != .unknown) = true ∧
    stateTest (during .init 2 [.ok bytes]) (fun t => t.lines.ldac != .unknown) = true := by decide
theorem witness_StepIssuesAtMostOneAction : ∃ t, step (during .clear 0 [.err]) = .next t := ⟨_, rfl⟩
theorem witness_HardwareIOExactlyOnFailedAction : stateTest (during .clear 0 [.err])
    (fun t => t.results == [.hardwareIO (.lineDrive .clr .low) 0] && t.trace.map (·.reply) == [.err]) = true := by decide
theorem witness_GeneralHasNoEffect : stateTest (calling (.op (.setCode 0#16 (.singleGroup 5))) [.ok bytes])
    (fun t => t.results == [.general .addressOutOfRange]) = true := by decide
theorem witness_BusLockSerialisesOperations :
    (∃ t, step (during .clear 0 [.err]) = .next t) ∧
    stateTest { created [] with executorHoldsLock := true, executorCalls := [.stop] } (fun t => !t.executorHoldsLock) = true ∧
    stateTest (calling .startExecutor []) (fun t => t.executorHoldsLock) = true := ⟨⟨_, rfl⟩, by decide, by decide⟩
theorem witness_StatedLineReactions : (⟨.low, .low, .low⟩ : Lines).reset = .low ∧
    (⟨.high, .unknown, .low⟩ : Lines).reset = .high ∧ (⟨.high, .unknown, .low⟩ : Lines).clr ≠ .low := by decide
/-- At zero volts and the creation trims, where X = 185680. -/
theorem witness_Binary64AgreesWithinError :
    { defaults with vtcArith := .binary64 }.vtcArith = VtcArith.binary64 ∧
    ∀ k : Int, binary64Error 0 (voltsValue defaults.vref) (spanOffset Mirror.creation 4).toNat
        (Mirror.creation.c[chIdx 4 7]).toNat (Mirror.creation.m[chIdx 4 7]).toNat <
      |unrounded 0 (voltsValue defaults.vref) (spanOffset Mirror.creation 4).toNat
        (Mirror.creation.c[chIdx 4 7]).toNat (Mirror.creation.m[chIdx 4 7]).toNat - ((k : Rat) + 1 / 2)| := by
  refine ⟨rfl, fun k => ?_⟩
  rw [show unrounded 0 (voltsValue defaults.vref) (spanOffset Mirror.creation 4).toNat (Mirror.creation.c[chIdx 4 7]).toNat
    (Mirror.creation.m[chIdx 4 7]).toNat = ((185680 : Int) : Rat) by decide +kernel]
  exact lt_of_lt_of_le (by decide +kernel) (half_le_abs_int_sub_tie 185680 k)

end Sys2Proof.Tests
end

section
/-! The creation values of the block's state, field by field (10_state.md R39). -/

namespace Sys2Proof.Machine

/-- Every channel starts at the power-on values of its four registers (10_state.md R24 to R27). -/
theorem Mirror.creation_channel (i : Fin 40) :
    Mirror.creation.x1a[i] = 0x1555#14 ∧ Mirror.creation.x1b[i] = 0x1555#14 ∧
    Mirror.creation.c[i] = 0x2000#14 ∧ Mirror.creation.m[i] = 0x3FFF#14 := by
  simp [Mirror.creation]

/-- Every group's A/B select byte starts with bank A for all its channels (10_state.md R30). -/
theorem Mirror.creation_select (g : GroupNo) : Mirror.creation.select[g] = 0x00#8 := by
  simp [Mirror.creation]

/-- No output line's level is known before the first drive (10_state.md R34). -/
theorem State.reset_lines_get (l : Line) : State.reset.lines.get l = .unknown := by
  cases l <;> rfl

/-- Settles O44: the array fields and the lines by their lemmas, the single-valued fields by evaluation. -/
theorem creationValues : Obligations.CreationValues := by
  unfold Obligations.CreationValues
  exact ⟨Mirror.creation_channel, rfl, rfl, rfl, Mirror.creation_select, State.reset_lines_get, rfl⟩

end Sys2Proof.Machine
end

section
/-! Frames and responses as numbers (20_memory.md R55, 30_encoding.md R80): a concatenation of words is positional. -/

namespace Sys2Proof

/-- A concatenation's value: the high part counts in units of the low part's range. -/
theorem toNat_append_eq_add {m n : Nat} (x : BitVec m) (y : BitVec n) :
    (x ++ y).toNat = x.toNat * 2 ^ n + y.toNat := by
  rw [BitVec.toNat_append, ← Nat.shiftLeft_add_eq_or_of_lt y.isLt, Nat.shiftLeft_eq]

/-- The places of the three fields (30_encoding.md R80). -/
theorem Frame.toNat_ofFields (m : BitVec 2) (a : BitVec 6) (d : Word) :
    (Frame.ofFields m a d).toNat = m.toNat * 2 ^ 22 + a.toNat * 2 ^ 16 + d.toNat := by
  rw [Frame.ofFields, toNat_append_eq_add, toNat_append_eq_add]
  ring

theorem Frame.toNat_mode (w : Frame) : w.mode.toNat = w.toNat / 2 ^ 22 % 2 ^ 2 := by
  rw [Frame.mode, BitVec.extractLsb'_toNat, Nat.shiftRight_eq_div_pow]

theorem Frame.toNat_addr (w : Frame) : w.addr.toNat = w.toNat / 2 ^ 16 % 2 ^ 6 := by
  rw [Frame.addr, BitVec.extractLsb'_toNat, Nat.shiftRight_eq_div_pow]

theorem Frame.toNat_data (w : Frame) : w.data.toNat = w.toNat % 2 ^ 16 := by
  rw [Frame.data, BitVec.extractLsb'_toNat, Nat.shiftRight_zero]

/-- Byte 0 holds mode and address. -/
theorem Frame.toNat_byte0 (w : Frame) : w.byte0.toNat = w.mode.toNat * 2 ^ 6 + w.addr.toNat := by
  rw [Frame.byte0, BitVec.extractLsb'_toNat, Nat.shiftRight_eq_div_pow, w.toNat_mode, w.toNat_addr]
  omega

/-- Byte 1 is the data field's high byte. -/
theorem Frame.toNat_byte1 (w : Frame) : w.byte1.toNat = w.data.toNat / 256 := by
  rw [Frame.byte1, BitVec.extractLsb'_toNat, Nat.shiftRight_eq_div_pow, w.toNat_data]
  omega

/-- Byte 2 is the data field's low byte. -/
theorem Frame.toNat_byte2 (w : Frame) : w.byte2.toNat = w.data.toNat % 256 := by
  rw [Frame.byte2, BitVec.extractLsb'_toNat, Nat.shiftRight_zero, w.toNat_data]
  omega

/-- A response's value is big-endian in its bytes 1 and 2 (20_memory.md R64). -/
theorem Machine.toNat_resp16 (r : Response) : (Machine.resp16 r).toNat = r.b1.toNat * 256 + r.b2.toNat :=
  toNat_append_eq_add r.b1 r.b2

/-- Settles O2: the codec's lemmas on fields and bytes, and their values as numbers. -/
theorem frameFieldsAndBytes : Obligations.FrameFieldsAndBytes := by
  unfold Obligations.FrameFieldsAndBytes
  refine ⟨fun m a d => ⟨Frame.toNat_ofFields m a d, ?_, ?_, ?_⟩, fun w => ?_, Machine.toNat_resp16⟩
  · exact Frame.mode_ofFields m a d
  · exact Frame.addr_ofFields m a d
  · exact Frame.data_ofFields m a d
  · exact ⟨w.ofFields_fields, w.ofBytes_bytes, w.toNat_byte0, w.toNat_byte1, w.toNat_byte2⟩

end Sys2Proof
end

section
/-! The channels each ChannelAddress names (20_memory.md R51): membership, and the sizes of the sets. -/

namespace Sys2Proof.Machine

/-- `allChannels` leaves no pair out. -/
@[simp] theorem mem_allChannels (p : GroupNo × ChanNo) : p ∈ allChannels := by
  obtain ⟨g, c⟩ := p
  have hg : g ∈ allGroups := by revert g; decide
  have hc : c ∈ allChans := by revert c; decide
  exact List.mem_flatMap.2 ⟨g, hg, List.mem_map.2 ⟨c, hc, rfl⟩⟩

theorem mem_addressed_allCh (p : GroupNo × ChanNo) : p ∈ addressed .allCh := mem_allChannels p

theorem mem_addressed_singleGroup (g : GroupNo) (p : GroupNo × ChanNo) :
    p ∈ addressed (.singleGroup g.val) ↔ p.1 = g := by
  simp [addressed, Fin.val_inj]

theorem mem_addressed_chx (c : ChanNo) (p : GroupNo × ChanNo) : p ∈ addressed (.chx c.val) ↔ p.2 = c := by
  simp [addressed, Fin.val_inj]

theorem mem_addressed_chxExceptGroup0 (c : ChanNo) (p : GroupNo × ChanNo) :
    p ∈ addressed (.chxExceptGroup0 c.val) ↔ p.2 = c ∧ p.1 ≠ 0 := by
  simp [addressed, Fin.val_inj, and_comm]

/-- One channel's set is that channel, once. -/
theorem addressed_singleCh (g : GroupNo) (c : ChanNo) : addressed (.singleCh g.val c.val) = [(g, c)] := by
  revert g c
  decide

theorem length_addressed_singleGroup (g : GroupNo) : (addressed (.singleGroup g.val)).length = 8 := by
  revert g
  decide

theorem length_addressed_chx (c : ChanNo) : (addressed (.chx c.val)).length = 5 := by
  revert c
  decide

theorem length_addressed_chxExceptGroup0 (c : ChanNo) : (addressed (.chxExceptGroup0 c.val)).length = 4 := by
  revert c
  decide

/-- Settles O37, row by row of R51's table: membership for every pair, sizes for every group and channel. -/
theorem addressedChannelSets : Obligations.AddressedChannelSets := by
  unfold Obligations.AddressedChannelSets
  exact ⟨mem_addressed_allCh, rfl, mem_addressed_singleGroup, length_addressed_singleGroup, addressed_singleCh,
    mem_addressed_chx, length_addressed_chx, mem_addressed_chxExceptGroup0, length_addressed_chxExceptGroup0⟩

end Sys2Proof.Machine
end

section
/-! A run of one host operation (20_memory.md R65): the state after its first n actions, all answered Ok, and how the run
ends from there. -/

namespace Sys2Proof.Machine

/-- An answer moves the mirror of read_all only, whose actions do not depend on it: the actions of the operation in
progress stay what they were. -/
theorem actionsOf_mirrorAfter (p : Params) (o : HostOp) (k : Nat) (a : Action) (x : Answer) (m : Mirror) :
    actionsOf p (mirrorAfter p (.op o k) a x m) o = actionsOf p m o := by
  obtain h | ⟨_, _, _, hph, _⟩ := mirrorAfter_cases p (.op o k) a x m
  · rw [h]
  · cases hph
    rfl

/-- Nor does it move what the operation in progress will return: read_all returns nothing. -/
theorem returnValue_mirrorAfter (p : Params) (o : HostOp) (k : Nat) (a : Action) (x : Answer) (m : Mirror) :
    returnValue p (mirrorAfter p (.op o k) a x m) o = returnValue p m o := by
  obtain h | ⟨_, _, _, hph, _⟩ := mirrorAfter_cases p (.op o k) a x m
  · rw [h]
  · cases hph
    rfl

/-- `t` is `s` after n actions of the operation `o`, all answered Ok: o still has the same actions and the same value to
return, no call was taken and no result returned. -/
structure Progressed (o : HostOp) (n : Nat) (s t : State) : Prop where
  phase : t.phase = .op o n
  actions : actionsOf t.params t.mirror o = actionsOf s.params s.mirror o
  value : returnValue t.params t.mirror o = returnValue s.params s.mirror o
  hostCalls : t.hostCalls = s.hostCalls
  results : t.results = s.results
  answers : t.answers = s.answers.drop n
  draws : t.draws = s.draws + n
  trace : t.trace.map (·.action) = s.trace.map (·.action) ++ (actionsOf s.params s.mirror o).take n

section
variable {o : HostOp} {n : Nat} {s t : State} {a : Action}

theorem Progressed.start (h : s.phase = .op o 0) : Progressed o 0 s s where
  phase := h
  actions := rfl
  value := rfl
  hostCalls := rfl
  results := rfl
  answers := rfl
  draws := rfl
  trace := by simp

/-- The oracle's next answer is the one that stood n draws ahead at the start. -/
theorem Progressed.nextAnswer (h : Progressed o n s t) (a : Action) : t.nextAnswer a = s.answerAt n a := by
  rw [t.nextAnswer_eq_answerAt, State.answerAt_drop h.answers h.draws, Nat.add_zero]

/-- One action more is recorded. -/
theorem Progressed.trace_snoc (h : Progressed o n s t) (ha : (actionsOf s.params s.mirror o)[n]? = some a) :
    t.trace.map (·.action) ++ [a] =
      s.trace.map (·.action) ++ (actionsOf s.params s.mirror o).take (n + 1) := by
  rw [h.trace, List.append_assoc, List.take_add_one, ha, Option.toList_some]

/-- An answer Ok lets the operation go on. -/
theorem Progressed.goes_on (h : Progressed o n s t) (ha : (actionsOf s.params s.mirror o)[n]? = some a)
    {r : Response} (hx : s.answerAt n a = .ok r) : ∃ u, step t = .next u ∧ Progressed o (n + 1) s u := by
  have hat : (actionsOf t.params t.mirror o)[n]? = some a := by rw [h.actions, ha]
  refine ⟨_, step_action_ok h.phase hat (by rw [h.nextAnswer, hx]), ?_⟩
  exact {
    phase := rfl
    actions := by rw [h.phase, actionsOf_mirrorAfter, h.actions]
    value := by rw [h.phase, returnValue_mirrorAfter, h.value]
    hostCalls := h.hostCalls
    results := h.results
    answers := by rw [h.answers, List.tail_drop]
    draws := by rw [h.draws, Nat.add_assoc]
    trace := by rw [List.map_append, ← h.trace_snoc ha]; rfl }

/-- While the answers are Ok, the operation issues its first n actions in n steps. -/
theorem stepsTo_progressed (hp : s.phase = .op o 0) (hn : n ≤ (actionsOf s.params s.mirror o).length)
    (hok : ∀ k a, k < n → (actionsOf s.params s.mirror o)[k]? = some a → ∃ r, s.answerAt k a = .ok r) :
    ∃ t, StepsTo n s t ∧ Progressed o n s t := by
  induction n with
  | zero => exact ⟨s, rfl, .start hp⟩
  | succ n ih =>
    obtain ⟨t, hst, h⟩ := ih (Nat.le_of_succ_le hn) fun k a hk => hok k a (Nat.lt_succ_of_lt hk)
    have ha := List.getElem?_eq_getElem hn
    obtain ⟨r, hx⟩ := hok n _ n.lt_succ_self ha
    obtain ⟨u, hu, h'⟩ := h.goes_on ha hx
    exact ⟨u, hst.trans (.one hu), h'⟩

/-- Past its last action the operation returns its value. -/
theorem Progressed.ends_ok (h : Progressed o (actionsOf s.params s.mirror o).length s t) :
    ∃ u, step t = .next u ∧ u.phase = .idle ∧ u.hostCalls = s.hostCalls ∧
      u.trace.map (·.action) = s.trace.map (·.action) ++ actionsOf s.params s.mirror o ∧
      u.results = s.results ++ [.ok (returnValue s.params s.mirror o)] := by
  refine ⟨_, step_return h.phase (by rw [h.actions]), rfl, h.hostCalls, ?_, ?_⟩
  · simpa using h.trace
  · rw [h.results, h.value]

/-- An answer Err ends the operation with HardwareIO at that action. -/
theorem Progressed.ends_err (h : Progressed o n s t) (ha : (actionsOf s.params s.mirror o)[n]? = some a)
    (hx : s.answerAt n a = .err) :
    ∃ u, step t = .next u ∧ u.phase = .idle ∧ u.hostCalls = s.hostCalls ∧
      u.trace.map (·.action) = s.trace.map (·.action) ++ (actionsOf s.params s.mirror o).take (n + 1) ∧
      u.results = s.results ++ [.hardwareIO a n] := by
  have hat : (actionsOf t.params t.mirror o)[n]? = some a := by rw [h.actions, ha]
  refine ⟨_, step_action_err h.phase hat (by rw [h.nextAnswer, hx]), rfl, h.hostCalls, ?_, ?_⟩
  · rw [List.map_append, ← h.trace_snoc ha]
    rfl
  · rw [h.results]

end

/-- Settles O23: the operation starts in one step, its actions answered Ok take a step each, and one more step returns or
fails. -/
theorem operationRunsItsActions : Obligations.OperationRunsItsActions := by
  unfold Obligations.OperationRunsItsActions
  intro s o rest hready hcheck
  have hstart := step_start_op hready hcheck
  refine ⟨fun hok => ?_, fun j a ha hx hok => ?_⟩
  · obtain ⟨t, hrun, h⟩ := stepsTo_progressed (s := { s with hostCalls := rest, phase := .op o 0 }) rfl le_rfl
      fun k a _ ha => hok k a ha
    obtain ⟨u, hu, hend⟩ := h.ends_ok
    exact ⟨u, ⟨_, hstart, hrun.trans (.one hu)⟩, hend⟩
  · obtain ⟨hj, -⟩ := List.getElem?_eq_some_iff.1 ha
    obtain ⟨t, hrun, h⟩ := stepsTo_progressed (s := { s with hostCalls := rest, phase := .op o 0 }) rfl hj.le hok
    obtain ⟨u, hu, hend⟩ := h.ends_err ha hx
    exact ⟨u, ⟨_, hstart, hrun.trans (.one hu)⟩, hend⟩

end Sys2Proof.Machine
end

section
/-! The bus lock and the waiting calls along a step (20_memory.md R66): what takes a call, and what hands the lock over. -/

namespace Sys2Proof.Machine

/-- No call is taken and the lock stays with its holder. -/
structure SameCalls (s t : State) : Prop where
  hostCalls : t.hostCalls = s.hostCalls
  executorCalls : t.executorCalls = s.executorCalls
  lock : t.executorHoldsLock = s.executorHoldsLock

theorem SameCalls.refl (s : State) : SameCalls s s := ⟨rfl, rfl, rfl⟩

theorem finish_sameCalls (r : Result) (s : State) : SameCalls s (s.finish r) := ⟨rfl, rfl, rfl⟩

theorem perform_sameCalls (a : Action) (s : State) : SameCalls s (perform a s) where
  hostCalls := s.answered_hostCalls a _
  executorCalls := s.answered_executorCalls a _
  lock := s.answered_executorHoldsLock a _

theorem startOp_sameCalls (o : HostOp) (s : State) : SameCalls s (startOp o s) := by
  cases h : operandCheck o with
  | none => rw [startOp_checked h]; exact ⟨rfl, rfl, rfl⟩
  | some c => rw [startOp_refused h]; exact finish_sameCalls _ s

theorem continueOp_sameCalls (o : HostOp) (k : Nat) (s : State) : SameCalls s (continueOp o k s) := by
  unfold continueOp
  split
  · exact perform_sameCalls _ s
  · exact finish_sameCalls _ s

theorem exec_sameCalls {i : Instr} {s t : State} (h : exec i s = .next t) : SameCalls s t := by
  obtain ⟨f, hf⟩ | ⟨f, hf⟩ | hf := exec_cases i s <;> cases hf.symm.trans h
  · exact perform_sameCalls _ s
  · exact perform_sameCalls _ s
  · exact finish_sameCalls _ s

/-- The Executor takes no direct call, and gives the lock up only at the end of its run. -/
theorem serveExecutor_calls (s : State) (hl : s.executorHoldsLock = true) :
    (serveExecutor s).hostCalls = s.hostCalls ∧
      ((serveExecutor s).executorHoldsLock = true ∨ s.executorCalls = .stop :: (serveExecutor s).executorCalls) := by
  unfold serveExecutor
  split
  case h_1 => exact ⟨rfl, .inl hl⟩
  case h_2 code target rest _ =>
    have keep := startOp_sameCalls (.setCode code target) { s with executorCalls := rest }
    exact ⟨keep.hostCalls, .inl (keep.lock.trans hl)⟩
  case h_3 hc => exact ⟨rfl, .inr hc⟩

/-- What a step does to the lock and the waiting calls: nothing in the middle of an operation; between operations the
Executor's hold keeps the direct calls waiting until its `stop`, and a free lock is taken by `startExecutor` alone. -/
theorem step_calls {s t : State} (h : step s = .next t) :
    ((∃ o k, s.phase = .op o k) ∧ SameCalls s t) ∨
    (s.phase = .idle ∧ s.executorHoldsLock = true ∧ t.hostCalls = s.hostCalls ∧
      (t.executorHoldsLock = true ∨ s.executorCalls = .stop :: t.executorCalls)) ∨
    (s.phase = .idle ∧ s.executorHoldsLock = false ∧
      (t.executorHoldsLock = false ∨ s.hostCalls = .startExecutor :: t.hostCalls)) := by
  obtain ⟨o, k, hp, rfl⟩ | ⟨hp, hl, rfl⟩ | ⟨hp, hl, -, rfl⟩ | ⟨o, rest, ⟨hp, hl, -⟩, rfl⟩ |
    ⟨rest, ⟨hp, hl, hc⟩, rfl⟩ | ⟨w, rest, i, ⟨hp, hl, -⟩, -, he⟩ := step_cases h
  · exact .inl ⟨⟨o, k, hp⟩, continueOp_sameCalls o k s⟩
  · exact .inr (.inl ⟨hp, hl, serveExecutor_calls s hl⟩)
  · exact .inr (.inr ⟨hp, hl, .inl hl⟩)
  · exact .inr (.inr ⟨hp, hl, .inl ((startOp_sameCalls o _).lock.trans hl)⟩)
  · exact .inr (.inr ⟨hp, hl, .inr hc⟩)
  · exact .inr (.inr ⟨hp, hl, .inl ((exec_sameCalls he).lock.trans hl)⟩)

/-- Settles O52: each clause from the three kinds of step that `step_calls` tells apart. -/
theorem busLockSerialisesOperations : Obligations.BusLockSerialisesOperations := by
  unfold Obligations.BusLockSerialisesOperations
  intro s t h
  obtain ⟨-, keep⟩ | ⟨hp, hl, hhost, hstop⟩ | ⟨hp, hl, hstart⟩ := step_calls h
  · refine ⟨fun _ => ⟨keep.hostCalls, keep.executorCalls, keep.lock⟩, fun _ => keep.hostCalls, ?_, ?_⟩ <;>
      intro hs ht <;> simp [keep.lock, hs] at ht
  · refine ⟨by simp [hp], fun _ => hhost, fun _ ht => ⟨hp, ?_⟩, by simp [hl]⟩
    simpa [ht] using hstop
  · refine ⟨by simp [hp], by simp [hl], by simp [hl], fun _ ht => ⟨hp, ?_⟩⟩
    simpa [ht] using hstart

end Sys2Proof.Machine
end

section
/-! Special-function codes and read-back selectors, decoded (30_encoding.md R91 to R96): the codes of none, and
`decodeSelector` as the inverse of `sel`. -/

namespace Sys2Proof

/-- The codes of none are 0, 4 and 12 to 63 (30_encoding.md R92). -/
theorem decodeSpecialAddr_eq_none_iff (a : BitVec 6) :
    decodeSpecialAddr a = none ↔ a = 0#6 ∨ a = 4#6 ∨ 12 ≤ a.toNat := by
  revert a
  decide

/-- No special function has a code of none. -/
theorem sfcode_ne_of_decodeSpecialAddr_eq_none {a : BitVec 6} (h : decodeSpecialAddr a = none)
    (s : SpecialFunctionAddress) : sfcode s ≠ a := by
  rintro rfl
  simp at h

theorem toNat_sfcode_select (g : GroupNo) : (sfcode (.select g)).toNat = 6 + g.val := by
  simp only [sfcode, BitVec.toNat_ofNat]
  omega

/-- A frame of mode 0 whose address is a special function's code. -/
theorem decodeFrame_encodeSpecial (s : SpecialFunctionAddress) (d : Word) :
    decodeFrame (encodeSpecial s d) = .special s d := by
  simp [decodeFrame, encodeSpecial, Mode.ofBits]

/-- A frame of mode 0 whose address is a code of none. -/
theorem decodeFrame_of_decodeSpecialAddr_eq_none {a : BitVec 6} (h : decodeSpecialAddr a = none) (d : Word) :
    decodeFrame (Frame.ofFields 0#2 a d) = .unrecognised 0#2 a d := by
  simp [decodeFrame, Mode.ofBits, h]

/-! ## Selectors -/

/-- The group and channel of their own sequence number (00_scope.md R13). -/
theorem channelOfSeq_seq (g : GroupNo) (c : ChanNo) : channelOfSeq (seq g c) = some (g, c) := by
  revert g c
  decide

theorem seq_of_channelOfSeq {n : Nat} {p : GroupNo × ChanNo} (h : channelOfSeq n = some p) : seq p.1 p.2 = n := by
  unfold channelOfSeq at h
  split at h
  · obtain rfl := Option.some.inj h
    simp only [seq]
    omega
  · contradiction

/-- Every sequence number fits the selector's six-bit number field. -/
theorem seq_mod (g : GroupNo) (c : ChanNo) : seq g c % 64 = seq g c := by
  simp only [seq]
  omega

/-- A selector whose low seven bits are 0 is its class and number (30_encoding.md R93). -/
theorem selOf_eq_of_fields {d : Word} {k : BitVec 3} {n : Nat} (hz : selZero d = 0#7) (hk : selClass d = k)
    (hn : (selNumber d).toNat = n) : selOf k n = d := by
  rw [selOf, ← hz, ← hk, ← hn, BitVec.ofNat_toNat, BitVec.setWidth_eq, selClass, selNumber, selZero,
    BitVec.extractLsb'_append_extractLsb'_eq_extractLsb' (by rfl),
    BitVec.extractLsb'_append_extractLsb'_eq_extractLsb' (by rfl)]
  simp

/-- The selector of a register names the register. -/
@[simp] theorem decodeSelector_sel (r : ReadBackAddr) : decodeSelector (sel r) = some r := by
  cases r with
  | x1a g c | x1b g c | c g c | m g c => simp [decodeSelector, sel, seq_mod, channelOfSeq_seq]
  | control => rfl
  | ofs0 => rfl
  | ofs1 => rfl
  | select g => revert g; decide

/-- A register of a per-channel class, from the class and the channel's number (30_encoding.md R94). -/
theorem sel_of_map_channelOfSeq {d : Word} {k : BitVec 3} {r : ReadBackAddr}
    {register : GroupNo → ChanNo → ReadBackAddr} (hsel : ∀ g c, sel (register g c) = selOf k (seq g c))
    (hz : selZero d = 0#7) (hk : selClass d = k)
    (h : (channelOfSeq (selNumber d).toNat).map (fun p => register p.1 p.2) = some r) : sel r = d := by
  obtain ⟨p, hp, rfl⟩ := Option.map_eq_some_iff.1 h
  rw [hsel]
  exact selOf_eq_of_fields hz hk (seq_of_channelOfSeq hp).symm

/-- A word that names a register is the register's selector. -/
theorem sel_of_decodeSelector {d : Word} {r : ReadBackAddr} (h : decodeSelector d = some r) : sel r = d := by
  unfold decodeSelector at h
  dsimp only at h
  obtain ⟨hz, h⟩ := Option.ite_none_left_eq_some.1 h
  rw [ne_eq, not_not] at hz
  obtain ⟨hx1a, h⟩ | ⟨-, h⟩ := ite_eq_iff.1 h
  · exact sel_of_map_channelOfSeq (fun _ _ => rfl) hz hx1a h
  obtain ⟨hx1b, h⟩ | ⟨-, h⟩ := ite_eq_iff.1 h
  · exact sel_of_map_channelOfSeq (fun _ _ => rfl) hz hx1b h
  obtain ⟨hc, h⟩ | ⟨-, h⟩ := ite_eq_iff.1 h
  · exact sel_of_map_channelOfSeq (fun _ _ => rfl) hz hc h
  obtain ⟨hm, h⟩ | ⟨-, h⟩ := ite_eq_iff.1 h
  · exact sel_of_map_channelOfSeq (fun _ _ => rfl) hz hm h
  obtain ⟨hglobal, h⟩ := Option.ite_none_right_eq_some.1 h
  obtain ⟨hcontrol, ⟨⟩⟩ | ⟨-, h⟩ := ite_eq_iff.1 h
  · exact selOf_eq_of_fields hz hglobal hcontrol
  obtain ⟨hofs0, ⟨⟩⟩ | ⟨-, h⟩ := ite_eq_iff.1 h
  · exact selOf_eq_of_fields hz hglobal hofs0
  obtain ⟨hofs1, ⟨⟩⟩ | ⟨-, h⟩ := ite_eq_iff.1 h
  · exact selOf_eq_of_fields hz hglobal hofs1
  obtain ⟨hselect, ⟨⟩⟩ | ⟨-, ⟨⟩⟩ := dite_eq_iff.1 h
  exact selOf_eq_of_fields hz hglobal (Nat.add_sub_of_le hselect.1).symm

end Sys2Proof
end

section
/-! What NDS states of the special-function frames (20_memory.md R73, R74), and read-back requests as `sf.readback`
(30_encoding.md R103). -/

namespace Sys2Proof.Machine

/-- A read request stages the register it names. -/
theorem frameReaction_encodeReadRequest (r : ReadBackAddr) :
    frameReaction (encodeReadRequest r) = .stageReadBack r := by
  simp [frameReaction, encodeReadRequest, decodeFrame_encodeSpecial]

theorem frameReaction_of_unrecognised {f : Frame} {m : BitVec 2} {a : BitVec 6} {d : Word}
    (h : decodeFrame f = .unrecognised m a d) : frameReaction f = .nothingStated := by
  simp [frameReaction, h]

/-- Settles O3: the frames of special functions by their round trip, and the codes of none from `decodeSpecialAddr`
answering `none` there. -/
theorem specialFunctionCodes : Obligations.SpecialFunctionCodes := by
  unfold Obligations.SpecialFunctionCodes
  refine ⟨⟨rfl, rfl, rfl, rfl, toNat_sfcode_select, rfl⟩, fun a d => ⟨decodeFrame_encodeSpecial a d, fun ha => ?_⟩,
    frameReaction_encodeReadRequest, fun a d ha => ?_, rfl, fun _ => rfl⟩
  · have hd := decodeFrame_encodeSpecial a d
    rw [encodeSpecial] at hd
    cases a with
    | readBack => contradiction
    | _ => simp only [frameReaction, hd]
  · have none_a := (decodeSpecialAddr_eq_none_iff a).2 ha
    have hd := decodeFrame_of_decodeSpecialAddr_eq_none none_a d
    refine ⟨fun s e => ?_, hd, frameReaction_of_unrecognised hd⟩
    rw [encodeSpecial, Frame.addr_ofFields]
    exact sfcode_ne_of_decodeSpecialAddr_eq_none none_a s

/-- `rd R` runs as `sf.readback sel(R)`. -/
theorem exec_request (r : ReadBackAddr) (s : State) : exec r.request s = exec (.sfReadback (sel r)) s := by
  cases r <;> rfl

theorem encode_request (r : ReadBackAddr) : r.request.encode = (Instr.sfReadback (sel r)).encode := by
  cases r <;> rfl

/-- The decoder's name of a ReadBack frame runs as the frame. -/
theorem exec_readbackInstr (d : Word) (s : State) : exec (readbackInstr d) s = exec (.sfReadback d) s := by
  unfold readbackInstr
  split
  case h_1 r hr => rw [exec_request, sel_of_decodeSelector hr]
  case h_2 => rfl

/-- Settles O18: both names send the same request, and a selector that decodes is its register's. -/
theorem pseudoInstructionsExpand : Obligations.PseudoInstructionsExpand := by
  unfold Obligations.PseudoInstructionsExpand
  refine ⟨encode_request, exec_request, fun i s => ?_⟩
  cases i with
  | sfReadback d => exact exec_readbackInstr d s
  | _ => rfl

end Sys2Proof.Machine
end

section
/-! The bytes of special-function frames and of read requests (40_frame_codec.md R121, R122): mode 0 leaves byte 0 to the
code, and the data field fills bytes 1 and 2. -/

namespace Sys2Proof

@[simp] theorem mode_encodeSpecial (a : SpecialFunctionAddress) (d : Word) : (encodeSpecial a d).mode = 0#2 :=
  Frame.mode_ofFields ..

@[simp] theorem addr_encodeSpecial (a : SpecialFunctionAddress) (d : Word) : (encodeSpecial a d).addr = sfcode a :=
  Frame.addr_ofFields ..

@[simp] theorem data_encodeSpecial (a : SpecialFunctionAddress) (d : Word) : (encodeSpecial a d).data = d :=
  Frame.data_ofFields ..

theorem toNat_byte0_encodeSpecial (a : SpecialFunctionAddress) (d : Word) :
    (encodeSpecial a d).byte0.toNat = (sfcode a).toNat := by
  simp [Frame.toNat_byte0]

theorem toNat_byte1_encodeSpecial (a : SpecialFunctionAddress) (d : Word) :
    (encodeSpecial a d).byte1.toNat = d.toNat / 256 := by
  rw [Frame.toNat_byte1, data_encodeSpecial]

theorem toNat_byte2_encodeSpecial (a : SpecialFunctionAddress) (d : Word) :
    (encodeSpecial a d).byte2.toNat = d.toNat % 256 := by
  rw [Frame.toNat_byte2, data_encodeSpecial]

/-- Whatever the register, byte 0 of its read request is the code of ReadBack. -/
theorem byte0_encodeReadRequest (r : ReadBackAddr) : (encodeReadRequest r).byte0 = 0x05#8 :=
  BitVec.eq_of_toNat_eq (toNat_byte0_encodeSpecial .readBack (sel r))

/-- Settles O4: the three bytes of a special-function frame, of which a read request is the ReadBack one. -/
theorem specialAndReadRequestEncoding : Obligations.SpecialAndReadRequestEncoding := by
  unfold Obligations.SpecialAndReadRequestEncoding
  refine ⟨fun a d => ⟨?_, ?_, ?_⟩, fun r => ⟨rfl, byte0_encodeReadRequest r⟩⟩
  · exact toNat_byte0_encodeSpecial a d
  · exact toNat_byte1_encodeSpecial a d
  · exact toNat_byte2_encodeSpecial a d

end Sys2Proof
end

section
/-! The converter's choices (41_transfer_function.md R161, R166): the one channel whose trims stand for a target, and the
span offset of a group. -/

namespace Sys2Proof.Machine

/-- A pair of numbers in range is itself. -/
@[simp] theorem channelAt_val (g : GroupNo) (c : ChanNo) : channelAt g.val c.val = some (g, c) :=
  dif_pos ⟨g.isLt, c.isLt⟩

theorem rep_allCh : rep .allCh = some (0, 0) := channelAt_val 0 0

theorem rep_singleCh (g : GroupNo) (c : ChanNo) : rep (.singleCh g.val c.val) = some (g, c) := channelAt_val g c

theorem rep_singleGroup (g : GroupNo) : rep (.singleGroup g.val) = some (g, 0) := channelAt_val g 0

theorem rep_chx (c : ChanNo) : rep (.chx c.val) = some (0, c) := channelAt_val 0 c

theorem rep_chxExceptGroup0 (c : ChanNo) : rep (.chxExceptGroup0 c.val) = some (1, c) := channelAt_val 1 c

/-- The range checks (42_control_fsm.md R181) leave R51's five rows, at a GroupNo and a ChanNo where the row has them. -/
theorem wf_target_cases {t : ChannelAddress} (ht : t.wf = true) :
    t = .allCh ∨ (∃ g : GroupNo, t = .singleGroup g.val) ∨ (∃ (g : GroupNo) (c : ChanNo), t = .singleCh g.val c.val) ∨
      (∃ c : ChanNo, t = .chx c.val) ∨ (∃ c : ChanNo, t = .chxExceptGroup0 c.val) := by
  cases t with
  | allCh => exact .inl rfl
  | singleGroup g => exact .inr (.inl ⟨⟨g, of_decide_eq_true ht⟩, rfl⟩)
  | singleCh g c =>
    obtain ⟨hg, hc⟩ := Bool.and_eq_true_iff.1 ht
    exact .inr (.inr (.inl ⟨⟨g, of_decide_eq_true hg⟩, ⟨c, of_decide_eq_true hc⟩, rfl⟩))
  | chx c => exact .inr (.inr (.inr (.inl ⟨⟨c, of_decide_eq_true ht⟩, rfl⟩)))
  | chxExceptGroup0 c => exact .inr (.inr (.inr (.inr ⟨⟨c, of_decide_eq_true ht⟩, rfl⟩)))

/-- The representative pair is one of the target's own channels (20_memory.md R51): outside group 0 it is group 1 that
stands for the others. -/
theorem rep_mem_addressed {t : ChannelAddress} (ht : t.wf = true) : ∃ p, rep t = some p ∧ p ∈ addressed t := by
  obtain rfl | ⟨g, rfl⟩ | ⟨g, c, rfl⟩ | ⟨c, rfl⟩ | ⟨c, rfl⟩ := wf_target_cases ht
  · exact ⟨_, rep_allCh, mem_addressed_allCh _⟩
  · exact ⟨_, rep_singleGroup g, (mem_addressed_singleGroup g _).2 rfl⟩
  · exact ⟨_, rep_singleCh g c, by simp [addressed_singleCh]⟩
  · exact ⟨_, rep_chx c, (mem_addressed_chx c _).2 rfl⟩
  · exact ⟨_, rep_chxExceptGroup0 c, (mem_addressed_chxExceptGroup0 c _).2 ⟨rfl, one_ne_zero⟩⟩

/-- Settles O38: R166's rows one by one, then the pair's membership by R51's row of the same target. -/
theorem representativePairs : Obligations.RepresentativePairs := by
  unfold Obligations.RepresentativePairs
  exact ⟨rep_allCh, rep_singleCh, rep_singleGroup, rep_chx, rep_chxExceptGroup0, fun _ => rep_mem_addressed⟩

theorem spanOffset_zero (m : Mirror) : spanOffset m 0 = m.ofs0 := if_pos rfl

theorem spanOffset_of_ne_zero (m : Mirror) {g : GroupNo} (hg : g ≠ 0) : spanOffset m g = m.ofs1 := if_neg hg

/-- Settles O39: group 0 and the other groups apart. -/
theorem spanOffsetByGroup : Obligations.SpanOffsetByGroup := by
  unfold Obligations.SpanOffsetByGroup
  refine fun m g => ⟨?_, spanOffset_of_ne_zero m⟩
  rintro rfl
  exact spanOffset_zero m

end Sys2Proof.Machine
end

section
/-! Host operations of one primitive action and of none (42_control_fsm.md R180): the whole state after each. -/

namespace Sys2Proof.Machine

theorem replyOf_ok_of_not_busRead {a : Action} (ha : ∀ f, a ≠ .busRead f) (r : Response) :
    replyOf a (.ok r) = .ok := by
  cases a with
  | busRead f => exact absurd rfl (ha f)
  | busWrite f => rfl
  | lineDrive l v => rfl

theorem mirrorAfter_of_not_busRead {a : Action} (ha : ∀ f, a ≠ .busRead f) (p : Params) (ph : Phase) (x : Answer)
    (m : Mirror) : mirrorAfter p ph a x m = m := by
  obtain h | ⟨_, f, _, _, hf, _⟩ := mirrorAfter_cases p ph a x m
  · exact h
  · exact absurd hf (ha f)

section
variable {s : State} {o : HostOp} {rest : List HostCall} {a : Action}

/-- An operation without an action starts and returns. -/
theorem stepsTo_no_action (hready : s.Ready (.op o) rest) (hcheck : operandCheck o = none)
    (hacts : actionsOf s.params s.mirror o = []) :
    StepsTo 2 s { s with hostCalls := rest, results := s.results ++ [.ok (returnValue s.params s.mirror o)] } := by
  have hreturn := step_return (s := { s with hostCalls := rest, phase := .op o 0 }) rfl (by simp [hacts])
  rw [← hready.1] at hreturn
  exact ⟨_, step_start_op hready hcheck, .one hreturn⟩

/-- An operation whose one action, a write or a line drive, is answered Ok: it starts, acts and returns. -/
theorem stepsTo_one_action_ok (hready : s.Ready (.op o) rest) (hcheck : operandCheck o = none)
    (hacts : actionsOf s.params s.mirror o = [a]) (ha : ∀ f, a ≠ .busRead f) {r : Response}
    (hx : s.nextAnswer a = .ok r) :
    StepsTo 3 s
      { s with
        hostCalls := rest
        answers := s.answers.tail
        draws := s.draws + 1
        lines := linesAfter a (.ok r) s.lines
        trace := s.trace ++ [⟨a, .ok, reactions s.lines a⟩]
        results := s.results ++ [.ok (returnValue s.params s.mirror o)] } := by
  have hact := step_action_ok (s := { s with hostCalls := rest, phase := .op o 0 }) (a := a) rfl (by simp [hacts]) hx
  rw [mirrorAfter_of_not_busRead ha, replyOf_ok_of_not_busRead ha] at hact
  refine ⟨_, step_start_op hready hcheck, _, hact, .one ?_⟩
  rw [step_return rfl (by simp [hacts]), ← hready.1]

/-- An operation whose first action is answered Err: it starts, acts and ends with HardwareIO at index 0. -/
theorem stepsTo_first_action_err (hready : s.Ready (.op o) rest) (hcheck : operandCheck o = none)
    (hacts : (actionsOf s.params s.mirror o)[0]? = some a) (hx : s.nextAnswer a = .err) :
    StepsTo 2 s
      { s with
        hostCalls := rest
        answers := s.answers.tail
        draws := s.draws + 1
        lines := linesAfter a .err s.lines
        trace := s.trace ++ [⟨a, .err, reactions s.lines a⟩]
        results := s.results ++ [.hardwareIO a 0] } := by
  have hact := step_action_err (s := { s with hostCalls := rest, phase := .op o 0 }) rfl hacts hx
  rw [← hready.1] at hact
  exact ⟨_, step_start_op hready hcheck, .one hact⟩

end

/-- Settles O24: each operation's one action is a drive of LDAC, answered Ok or Err. -/
theorem ldacOperations : Obligations.LdacOperations := by
  unfold Obligations.LdacOperations
  refine fun s rest => ⟨fun hready => ⟨fun r hok => ?_, fun herr => ?_⟩, fun hready => ⟨fun r hok => ?_, fun herr => ?_⟩⟩
  · exact stepsTo_one_action_ok hready rfl rfl nofun hok
  · exact stepsTo_first_action_err hready rfl rfl herr
  · exact stepsTo_one_action_ok hready rfl rfl nofun hok
  · exact stepsTo_first_action_err hready rfl rfl herr

/-- Settles O31: get_vref has no action, and what it returns is the parameter. -/
theorem getVrefReturnsParameter : Obligations.GetVrefReturnsParameter := by
  unfold Obligations.GetVrefReturnsParameter
  exact fun s rest hready => stepsTo_no_action hready rfl rfl

end Sys2Proof.Machine
end

section
/-! HardwareIO along a step (60_exceptions.md R231): the step's one action and the result it returns, side by side. -/

namespace Sys2Proof.Machine

/-- From `s` to `t` a HardwareIO for an action is returned exactly when that action is recorded with the answer Err. -/
def RaisesExactlyOnErr (s t : State) : Prop :=
  ∀ a, (∃ k, t.results = s.results ++ [.hardwareIO a k]) ↔ ∃ rs, t.trace = s.trace ++ [⟨a, .err, rs⟩]

@[simp] theorem replyOf_eq_err_iff (a : Action) (x : Answer) : replyOf a x = .err ↔ x = .err := by
  cases x with
  | err => simp [replyOf]
  | ok r => cases a <;> simp [replyOf]

/-- The trace gains a failed action when the answer is Err, and it is the action performed. -/
theorem State.answered_records_err_iff (a b : Action) (x : Answer) (s : State) :
    (∃ rs, (s.answered a x).trace = s.trace ++ [⟨b, .err, rs⟩]) ↔ a = b ∧ x = .err := by
  simp

/-- Of the four ways an action ends, those with the answer Err return HardwareIO for it. -/
theorem State.answered_raises_iff (a b : Action) (x : Answer) (s : State) :
    (∃ k, (s.answered a x).results = s.results ++ [.hardwareIO b k]) ↔ a = b ∧ x = .err := by
  obtain ⟨_, _, _, -, rfl, -, hr⟩ | ⟨_, _, -, rfl, -, hr⟩ | ⟨_, -, rfl, -, hr⟩ | ⟨-, rfl, -, hr⟩ :=
    s.answered_ends a x <;> simp [hr]

theorem perform_raisesExactlyOnErr (a : Action) (s : State) : RaisesExactlyOnErr s (perform a s) :=
  fun b => (s.answered_raises_iff a b _).trans (s.answered_records_err_iff a b _).symm

/-- With nothing recorded and nothing returned, nothing is raised. -/
theorem RaisesExactlyOnErr.of_unchanged {s t : State} (htrace : t.trace = s.trace) (hresults : t.results = s.results) :
    RaisesExactlyOnErr s t := by
  simp [RaisesExactlyOnErr, htrace, hresults]

/-- An end without an action returns a value or General. -/
theorem finish_raisesExactlyOnErr {r : Result} (hr : ∀ a k, r ≠ .hardwareIO a k) (s : State) :
    RaisesExactlyOnErr s (s.finish r) := by
  simp [RaisesExactlyOnErr, hr]

theorem startOp_raisesExactlyOnErr (o : HostOp) (s : State) : RaisesExactlyOnErr s (startOp o s) := by
  cases h : operandCheck o with
  | none => rw [startOp_checked h]; exact .of_unchanged rfl rfl
  | some c => rw [startOp_refused h]; exact finish_raisesExactlyOnErr (by simp) s

theorem continueOp_raisesExactlyOnErr (o : HostOp) (k : Nat) (s : State) :
    RaisesExactlyOnErr s (continueOp o k s) := by
  unfold continueOp
  split
  · exact perform_raisesExactlyOnErr _ s
  · exact finish_raisesExactlyOnErr (by simp) s

theorem serveExecutor_raisesExactlyOnErr (s : State) : RaisesExactlyOnErr s (serveExecutor s) := by
  unfold serveExecutor
  split
  case h_1 => exact .of_unchanged rfl rfl
  case h_2 code target rest _ => exact startOp_raisesExactlyOnErr (.setCode code target) { s with executorCalls := rest }
  case h_3 => exact .of_unchanged rfl rfl

theorem exec_raisesExactlyOnErr {i : Instr} {s t : State} (h : exec i s = .next t) : RaisesExactlyOnErr s t := by
  obtain ⟨f, hf⟩ | ⟨f, hf⟩ | hf := exec_cases i s <;> cases hf.symm.trans h
  · exact perform_raisesExactlyOnErr _ s
  · exact perform_raisesExactlyOnErr _ s
  · exact finish_raisesExactlyOnErr (by simp) s

/-- Settles O50: by the kinds of step; taking a call from its list neither records nor returns anything. -/
theorem hardwareIOExactlyOnFailedAction : Obligations.HardwareIOExactlyOnFailedAction := by
  unfold Obligations.HardwareIOExactlyOnFailedAction
  intro s t h
  change RaisesExactlyOnErr s t
  obtain ⟨o, k, -, rfl⟩ | ⟨-, -, rfl⟩ | ⟨-, -, -, rfl⟩ | ⟨o, rest, -, rfl⟩ | ⟨rest, -, rfl⟩ |
    ⟨w, rest, i, -, -, he⟩ := step_cases h
  · exact continueOp_raisesExactlyOnErr o k s
  · exact serveExecutor_raisesExactlyOnErr s
  · exact .of_unchanged rfl rfl
  · exact startOp_raisesExactlyOnErr o { s with hostCalls := rest }
  · exact .of_unchanged rfl rfl
  · exact exec_raisesExactlyOnErr (s := { s with hostCalls := rest }) he

end Sys2Proof.Machine
end

section
/-! The frame codec, both ways (30_encoding.md, 40_frame_codec.md section 1): channel address codes, read-back selectors
as numbers, and decoding against encoding, for frames and for instructions. -/

namespace Sys2Proof

/-! ## Channel address codes (30_encoding.md section 2) -/

theorem toNat_chcode_singleGroup {g : Nat} (hg : g < 5) : (chcode (.singleGroup g)).toNat = g + 1 := by
  simp only [chcode, BitVec.toNat_ofNat]
  omega

theorem toNat_chcode_singleCh {g c : Nat} (hg : g < 5) (hc : c < 8) :
    (chcode (.singleCh g c)).toNat = (g + 1) * 8 + c := by
  simp only [chcode, seq, BitVec.toNat_ofNat]
  omega

theorem toNat_chcode_chx {c : Nat} (hc : c < 8) : (chcode (.chx c)).toNat = 48 + c := by
  simp only [chcode, BitVec.toNat_ofNat]
  omega

theorem toNat_chcode_chxExceptGroup0 {c : Nat} (hc : c < 8) : (chcode (.chxExceptGroup0 c)).toNat = 56 + c := by
  simp only [chcode, BitVec.toNat_ofNat]
  omega

/-- Only the codes 6 and 7 stand for no target (30_encoding.md R90). -/
theorem decodeTarget_eq_none_iff (a : BitVec 6) : decodeTarget a = none ↔ a = 6#6 ∨ a = 7#6 := by
  revert a
  decide

/-- The target of a code is well formed, and the code is the target's. -/
theorem wf_and_chcode_of_mem_decodeTarget : ∀ a, ∀ t ∈ decodeTarget a, t.wf = true ∧ chcode t = a := by
  decide

theorem chcode_eq_iff {t : ChannelAddress} (ht : t.wf = true) (a : BitVec 6) :
    chcode t = a ↔ decodeTarget a = some t := by
  refine ⟨?_, fun h => (wf_and_chcode_of_mem_decodeTarget a t h).2⟩
  rintro rfl
  exact decodeTarget_chcode t ht

theorem chcode_ne_of_decodeTarget_eq_none {t : ChannelAddress} (ht : t.wf = true) {a : BitVec 6}
    (ha : decodeTarget a = none) : chcode t ≠ a := by
  rw [ne_eq, chcode_eq_iff ht, ha]
  nofun

/-- Settles O5: `decodeTarget` inverts `chcode`, and only 6 and 7 have no target. -/
theorem channelCodesPartition : Obligations.ChannelCodesPartition := by
  unfold Obligations.ChannelCodesPartition
  refine ⟨rfl, fun g => toNat_chcode_singleGroup, fun g hg c => toNat_chcode_singleCh hg,
    fun c hc => ⟨toNat_chcode_chx hc, toNat_chcode_chxExceptGroup0 hc⟩, fun t ht => ⟨?_, ?_⟩, fun a h6 h7 => ?_⟩
  · exact chcode_ne_of_decodeTarget_eq_none ht rfl
  · exact chcode_ne_of_decodeTarget_eq_none ht rfl
  · have ha : decodeTarget a ≠ none := by simp [decodeTarget_eq_none_iff, h6, h7]
    obtain ⟨t, ht⟩ := Option.ne_none_iff_exists'.1 ha
    refine ⟨t, wf_and_chcode_of_mem_decodeTarget a t ht, fun u hu hua => ?_⟩
    rw [chcode_eq_iff hu, ht] at hua
    exact (Option.some.inj hua).symm

/-! ## Selectors as numbers (30_encoding.md R93) -/

theorem toNat_selOf (k : BitVec 3) (n : Nat) : (selOf k n).toNat = k.toNat * 2 ^ 13 + n % 2 ^ 6 * 2 ^ 7 := by
  rw [selOf, toNat_append_eq_add, toNat_append_eq_add, BitVec.toNat_ofNat]
  simp only [BitVec.toNat_ofNat]
  omega

/-- The selector of a channel's register of class k. -/
theorem toNat_selOf_seq (k : BitVec 3) (g : GroupNo) (c : ChanNo) :
    (selOf k (seq g c)).toNat = 0x2000 * k.toNat + 128 * (g.val * 8 + c.val + 8) := by
  rw [toNat_selOf, seq]
  omega

theorem toNat_sel_select (g : GroupNo) : (sel (.select g)).toNat = 0x8300 + 0x80 * g.val := by
  rw [sel, toNat_selOf]
  simp only [BitVec.toNat_ofNat]
  omega

/-- Settles O6: the values from the selector's fields; `decodeSelector` inverts `sel` on both sides. -/
theorem selectorsInvert : Obligations.SelectorsInvert := by
  unfold Obligations.SelectorsInvert
  refine ⟨fun g c => ⟨?_, ?_, ?_, ?_, toNat_sel_select g⟩, rfl, rfl, rfl, fun d r => ⟨?_, ?_⟩⟩
  · exact toNat_selOf_seq 0#3 g c
  · exact toNat_selOf_seq 1#3 g c
  · exact toNat_selOf_seq 2#3 g c
  · exact toNat_selOf_seq 3#3 g c
  · exact fun h => (sel_of_decodeSelector h).symm
  · rintro rfl
    exact decodeSelector_sel r

/-! ## Injectivity (40_frame_codec.md, codec law 5) -/

theorem Frame.ofFields_inj {m m' : BitVec 2} {a a' : BitVec 6} {d d' : Word} :
    Frame.ofFields m a d = Frame.ofFields m' a' d' ↔ m = m' ∧ a = a' ∧ d = d' := by
  refine ⟨fun h => ⟨?_, ?_, ?_⟩, fun ⟨hm, ha, hd⟩ => by rw [hm, ha, hd]⟩
  · simpa using congrArg Frame.mode h
  · simpa using congrArg Frame.addr h
  · simpa using congrArg Frame.data h

theorem Mode.bits_injective : Function.Injective Mode.bits := Function.LeftInverse.injective Mode.ofBits_bits

theorem chcode_injective_of_wf {t t' : ChannelAddress} (ht : t.wf = true) (ht' : t'.wf = true)
    (h : chcode t = chcode t') : t = t' := by
  rw [chcode_eq_iff ht, decodeTarget_chcode t' ht'] at h
  exact (Option.some.inj h).symm

theorem sfcode_injective : Function.Injective sfcode := fun a a' h => by
  simpa using congrArg decodeSpecialAddr h

theorem encodeSpecial_inj {a a' : SpecialFunctionAddress} {d d' : Word} :
    encodeSpecial a d = encodeSpecial a' d' ↔ a = a' ∧ d = d' := by
  simp [encodeSpecial, Frame.ofFields_inj, sfcode_injective.eq_iff]

theorem sel_injective : Function.Injective sel := fun r r' h => by
  simpa using congrArg decodeSelector h

/-- Settles O7: the fields of a frame determine its mode, its target or function, and its data. -/
theorem encodersInjective : Obligations.EncodersInjective := by
  unfold Obligations.EncodersInjective
  refine ⟨fun m t d m' t' d' f h h' => ?_, fun a d a' d' => encodeSpecial_inj.1, fun r r' => (sel_injective ·),
    fun m t d => ?_⟩
  · obtain ⟨-, ht, rfl⟩ := (encodeWrite_eq_some m t d f).1 h
    obtain ⟨-, ht', hf⟩ := (encodeWrite_eq_some m' t' d' _).1 h'
    obtain ⟨hm, hc, hd⟩ := Frame.ofFields_inj.1 hf
    exact ⟨Mode.bits_injective hm, chcode_injective_of_wf ht ht' hc, hd⟩
  · simp [encodeWrite_eq_some]

/-! ## The decoder on frames (40_frame_codec.md R124, codec laws 1, 2 and 4) -/

theorem Mode.ofBits_eq_special_iff (b : BitVec 2) : Mode.ofBits b = .special ↔ b = 0#2 := by
  revert b
  decide

/-- Outside mode Special the address is a channel address code. -/
theorem decodeFrame_of_mode_ne {w : Frame} (h : Mode.ofBits w.mode ≠ .special) :
    decodeFrame w =
      match decodeTarget w.addr with
      | some t => .write (Mode.ofBits w.mode) t w.data
      | none => .unrecognised w.mode w.addr w.data := by
  unfold decodeFrame
  cases hm : Mode.ofBits w.mode with
  | special => exact absurd hm h
  | data | offset | gain => cases decodeTarget w.addr <;> rfl

/-- In mode Special the address is a special-function code. -/
theorem decodeFrame_of_mode_eq {w : Frame} (h : Mode.ofBits w.mode = .special) :
    decodeFrame w =
      match decodeSpecialAddr w.addr with
      | some a => .special a w.data
      | none => .unrecognised w.mode w.addr w.data := by
  cases ha : decodeSpecialAddr w.addr <;> simp [decodeFrame, h, ha]

/-- Decoding an encoded write frame. -/
theorem decodeFrame_write {m : Mode} {t : ChannelAddress} (hm : m ≠ .special) (ht : t.wf = true) (d : Word) :
    decodeFrame (Frame.ofFields m.bits (chcode t) d) = .write m t d := by
  rw [decodeFrame_of_mode_ne (by simpa using hm)]
  simp [decodeTarget_chcode t ht]

theorem sfcode_of_mem_decodeSpecialAddr : ∀ a, ∀ s ∈ decodeSpecialAddr a, sfcode s = a := by
  decide

/-- Everything a frame can be: a write frame of a well-formed target, a special frame, or a frame of no row with its raw
fields. -/
theorem decodeFrame_cases (w : Frame) :
    (∃ m t, m ≠ .special ∧ t.wf = true ∧ decodeFrame w = .write m t w.data ∧
      Frame.ofFields m.bits (chcode t) w.data = w) ∨
    (∃ a, decodeFrame w = .special a w.data ∧ encodeSpecial a w.data = w) ∨
    decodeFrame w = .unrecognised w.mode w.addr w.data := by
  by_cases hm : Mode.ofBits w.mode = .special
  · have hd := decodeFrame_of_mode_eq hm
    rw [Mode.ofBits_eq_special_iff] at hm
    cases ha : decodeSpecialAddr w.addr with
    | some a =>
      refine .inr (.inl ⟨a, by rw [hd, ha], ?_⟩)
      rw [encodeSpecial, sfcode_of_mem_decodeSpecialAddr _ a ha, ← hm, w.ofFields_fields]
    | none => exact .inr (.inr (by rw [hd, ha]))
  · have hd := decodeFrame_of_mode_ne hm
    cases ha : decodeTarget w.addr with
    | some t =>
      obtain ⟨ht, hc⟩ := wf_and_chcode_of_mem_decodeTarget _ t ha
      refine .inl ⟨_, t, hm, ht, by rw [hd, ha], ?_⟩
      rw [hc, Mode.bits_ofBits, w.ofFields_fields]
    | none => exact .inr (.inr (by rw [hd, ha]))

/-! ## The decoder on instructions -/

/-- A write frame's instruction: its mode is none of Special, and its target, its frame and its one name. -/
structure WritesFrame (m : Mode) (t : ChannelAddress) (d : Word) (i : Instr) : Prop where
  mode : m ≠ .special
  target : i.target = some t
  encode : i.encode = Frame.ofFields m.bits (chcode t) d
  canonical : i.canonical = i

theorem writesFrame_of_writeInstr {m : Mode} {t : ChannelAddress} {d : Word} {i : Instr}
    (h : writeInstr m t d = some i) : WritesFrame m t d i := by
  cases m with
  | special => cases h
  | data | offset | gain => cases t <;> obtain rfl := Option.some.inj h <;> exact ⟨nofun, rfl, rfl, rfl⟩

/-- A write frame's instruction is well formed as its target is. -/
theorem WritesFrame.wf {m : Mode} {t : ChannelAddress} {d : Word} {i : Instr} (h : WritesFrame m t d i) :
    i.wf = t.wf := by
  simp [Instr.wf, h.target]

/-- Every mode but Special has a write frame for every target. -/
theorem exists_writeInstr {m : Mode} (hm : m ≠ .special) (t : ChannelAddress) (d : Word) :
    ∃ i, writeInstr m t d = some i := by
  cases m with
  | special => exact absurd rfl hm
  | data | offset | gain => cases t <;> exact ⟨_, rfl⟩

/-- The instruction of a ReadBack frame that names a register. -/
theorem readbackInstr_sel (r : ReadBackAddr) : readbackInstr (sel r) = r.request := by
  simp [readbackInstr]

/-- Every instruction is a write frame's, or its words are a special frame's and its one name is that frame's. -/
theorem Instr.write_or_special (i : Instr) :
    (∃ m t d, writeInstr m t d = some i) ∨
    (∃ a d, i.encode = encodeSpecial a d ∧ i.canonical = specialInstr a d ∧ i.wf = true) := by
  cases i with
  | wrDataAll d => exact .inl ⟨.data, .allCh, d, rfl⟩
  | wrDataGrp g d => exact .inl ⟨.data, .singleGroup g, d, rfl⟩
  | wrDataCh g c d => exact .inl ⟨.data, .singleCh g c, d, rfl⟩
  | wrDataChx c d => exact .inl ⟨.data, .chx c, d, rfl⟩
  | wrDataChxng0 c d => exact .inl ⟨.data, .chxExceptGroup0 c, d, rfl⟩
  | wrOffsetAll d => exact .inl ⟨.offset, .allCh, d, rfl⟩
  | wrOffsetGrp g d => exact .inl ⟨.offset, .singleGroup g, d, rfl⟩
  | wrOffsetCh g c d => exact .inl ⟨.offset, .singleCh g c, d, rfl⟩
  | wrOffsetChx c d => exact .inl ⟨.offset, .chx c, d, rfl⟩
  | wrOffsetChxng0 c d => exact .inl ⟨.offset, .chxExceptGroup0 c, d, rfl⟩
  | wrGainAll d => exact .inl ⟨.gain, .allCh, d, rfl⟩
  | wrGainGrp g d => exact .inl ⟨.gain, .singleGroup g, d, rfl⟩
  | wrGainCh g c d => exact .inl ⟨.gain, .singleCh g c, d, rfl⟩
  | wrGainChx c d => exact .inl ⟨.gain, .chx c, d, rfl⟩
  | wrGainChxng0 c d => exact .inl ⟨.gain, .chxExceptGroup0 c, d, rfl⟩
  | sfControl d => exact .inr ⟨.control, d, rfl, rfl, rfl⟩
  | sfOfs0 d => exact .inr ⟨.ofs0, d, rfl, rfl, rfl⟩
  | sfOfs1 d => exact .inr ⟨.ofs1, d, rfl, rfl, rfl⟩
  | sfReadback d => exact .inr ⟨.readBack, d, rfl, rfl, rfl⟩
  | sfSelect g d => exact .inr ⟨.select g, d, rfl, rfl, rfl⟩
  | sfSelectAll d => exact .inr ⟨.selectAll, d, rfl, rfl, rfl⟩
  | rdX1a g c => exact .inr ⟨.readBack, sel (.x1a g c), rfl, (readbackInstr_sel (.x1a g c)).symm, rfl⟩
  | rdX1b g c => exact .inr ⟨.readBack, sel (.x1b g c), rfl, (readbackInstr_sel (.x1b g c)).symm, rfl⟩
  | rdC g c => exact .inr ⟨.readBack, sel (.c g c), rfl, (readbackInstr_sel (.c g c)).symm, rfl⟩
  | rdM g c => exact .inr ⟨.readBack, sel (.m g c), rfl, (readbackInstr_sel (.m g c)).symm, rfl⟩
  | rdControl => exact .inr ⟨.readBack, sel .control, rfl, (readbackInstr_sel .control).symm, rfl⟩
  | rdOfs0 => exact .inr ⟨.readBack, sel .ofs0, rfl, (readbackInstr_sel .ofs0).symm, rfl⟩
  | rdOfs1 => exact .inr ⟨.readBack, sel .ofs1, rfl, (readbackInstr_sel .ofs1).symm, rfl⟩
  | rdSelect g => exact .inr ⟨.readBack, sel (.select g), rfl, (readbackInstr_sel (.select g)).symm, rfl⟩

theorem decodeInstr_of_write {w : Frame} {m : Mode} {t : ChannelAddress} {d : Word} {i : Instr}
    (hw : decodeFrame w = .write m t d) (hi : writeInstr m t d = some i) : decodeInstr w = .ok i := by
  simp [decodeInstr, hw, hi]

theorem decodeInstr_of_special {w : Frame} {a : SpecialFunctionAddress} {d : Word}
    (hw : decodeFrame w = .special a d) : decodeInstr w = .ok (specialInstr a d) := by
  simp [decodeInstr, hw]

theorem decodeInstr_of_unrecognised {w : Frame} {m : BitVec 2} {a : BitVec 6} {d : Word}
    (hw : decodeFrame w = .unrecognised m a d) : decodeInstr w = .error (.unrecognised m a d) := by
  simp [decodeInstr, hw]

/-- The words of a well-formed instruction decode to it under its one name. -/
theorem decodeInstr_encode {i : Instr} (hi : i.wf = true) : decodeInstr i.encode = .ok i.canonical := by
  obtain ⟨m, t, d, h⟩ | ⟨a, d, he, hc, -⟩ := i.write_or_special
  · have hw := writesFrame_of_writeInstr h
    rw [hw.encode, hw.canonical]
    exact decodeInstr_of_write (decodeFrame_write hw.mode (hw.wf ▸ hi) d) h
  · rw [he, hc]
    exact decodeInstr_of_special (decodeFrame_encodeSpecial a d)

/-- Settles O8: write frames by their target's code, special frames by their function's; a byte string starts with the
frame's three bytes. -/
theorem decodeEncodeAgree : Obligations.DecodeEncodeAgree := by
  unfold Obligations.DecodeEncodeAgree
  intro i rest hi
  refine ⟨decodeInstr_encode hi, ?_⟩
  have hbytes := decode_bytes i.encode rest
  rwa [decodeInstr_encode hi] at hbytes

theorem canonical_specialInstr (a : SpecialFunctionAddress) (d : Word) :
    (specialInstr a d).canonical = specialInstr a d := by
  cases a with
  | readBack => exact (Laws.CanonicalForm.sfReadback d).2
  | _ => rfl

theorem wf_specialInstr (a : SpecialFunctionAddress) (d : Word) : (specialInstr a d).wf = true := by
  cases a with
  | readBack => exact (Laws.CanonicalForm.sfReadback d).1
  | _ => rfl

/-- The decoder's name of a ReadBack frame has the frame's words. -/
theorem encode_readbackInstr (d : Word) : (readbackInstr d).encode = encodeSpecial .readBack d := by
  unfold readbackInstr
  cases h : decodeSelector d with
  | some r =>
    rw [← sel_of_decodeSelector h]
    exact Machine.encode_request r
  | none => rfl

theorem encode_specialInstr (a : SpecialFunctionAddress) (d : Word) :
    (specialInstr a d).encode = encodeSpecial a d := by
  cases a with
  | readBack => exact encode_readbackInstr d
  | _ => rfl

/-- A decoded instruction is well formed, has its one name, and its words are the frame. -/
theorem wf_canonical_encode_of_decodeInstr {w : Frame} {i : Instr} (h : decodeInstr w = .ok i) :
    i.wf = true ∧ i.canonical = i ∧ i.encode = w := by
  obtain ⟨m, t, hm, ht, hd, hw⟩ | ⟨a, hd, hw⟩ | hd := decodeFrame_cases w
  · obtain ⟨j, hj⟩ := exists_writeInstr hm t w.data
    cases (decodeInstr_of_write hd hj).symm.trans h
    have hwrites := writesFrame_of_writeInstr hj
    exact ⟨hwrites.wf.trans ht, hwrites.canonical, hwrites.encode.trans hw⟩
  · cases (decodeInstr_of_special hd).symm.trans h
    exact ⟨wf_specialInstr a _, canonical_specialInstr a _, (encode_specialInstr a _).trans hw⟩
  · cases (decodeInstr_of_unrecognised hd).symm.trans h

/-- A recognised frame is re-encoded to itself. -/
theorem encodeDecoded_decodeFrame {w : Frame} (h : Machine.recognised w) : encodeDecoded (decodeFrame w) = some w := by
  obtain ⟨m, t, hm, ht, hd, hw⟩ | ⟨a, hd, hw⟩ | hd := decodeFrame_cases w
  · rw [hd, encodeDecoded, encodeWrite_of_wf hm ht, hw]
  · rw [hd, encodeDecoded, hw]
  · exact absurd hd (h _ _ _)

/-- Settles O9: by what a frame can be. -/
theorem decodedFramesReencode : Obligations.DecodedFramesReencode := by
  unfold Obligations.DecodedFramesReencode
  exact ⟨fun _ => encodeDecoded_decodeFrame, fun _ _ => wf_canonical_encode_of_decodeInstr⟩

/-! ## The frames of no row (30_encoding.md R99) -/

/-- The decoder names every frame but the unrecognised ones. -/
theorem decodeInstr_eq_error_iff (w : Frame) :
    (∃ e, decodeInstr w = .error e) ↔ ∃ m a d, decodeFrame w = .unrecognised m a d := by
  refine ⟨fun ⟨e, he⟩ => ?_, fun ⟨m, a, d, h⟩ => ⟨_, decodeInstr_of_unrecognised h⟩⟩
  obtain ⟨m, t, hm, -, hd, -⟩ | ⟨a, hd, -⟩ | hd := decodeFrame_cases w
  · obtain ⟨j, hj⟩ := exists_writeInstr hm t w.data
    cases (decodeInstr_of_write hd hj).symm.trans he
  · cases (decodeInstr_of_special hd).symm.trans he
  · exact ⟨_, _, _, hd⟩

theorem decodeFrame_eq_unrecognised_iff (w : Frame) :
    decodeFrame w = .unrecognised w.mode w.addr w.data ↔
      (w.mode ≠ 0#2 ∧ decodeTarget w.addr = none) ∨ (w.mode = 0#2 ∧ decodeSpecialAddr w.addr = none) := by
  by_cases hm : w.mode = 0#2
  · rw [decodeFrame_of_mode_eq ((Mode.ofBits_eq_special_iff _).2 hm)]
    cases decodeSpecialAddr w.addr <;> simp [hm]
  · rw [decodeFrame_of_mode_ne (mt (Mode.ofBits_eq_special_iff _).1 hm)]
    cases decodeTarget w.addr <;> simp [hm]

/-- An unrecognised frame's verdict carries its own fields. -/
theorem fields_of_decodeFrame_unrecognised {w : Frame} {m : BitVec 2} {a : BitVec 6} {d : Word}
    (h : decodeFrame w = .unrecognised m a d) : m = w.mode ∧ a = w.addr ∧ d = w.data := by
  obtain ⟨_, _, -, -, hd, -⟩ | ⟨_, hd, -⟩ | hd := decodeFrame_cases w
  · cases hd.symm.trans h
  · cases hd.symm.trans h
  · cases hd.symm.trans h
    exact ⟨rfl, rfl, rfl⟩

/-- Settles O10: the codes of none, of targets outside mode Special and of special functions in it. -/
theorem unusedFramesAreUnrecognised : Obligations.UnusedFramesAreUnrecognised := by
  unfold Obligations.UnusedFramesAreUnrecognised
  refine fun w => ⟨?_, fun m a d => fields_of_decodeFrame_unrecognised, (decodeInstr_eq_error_iff w).symm⟩
  rw [decodeFrame_eq_unrecognised_iff, decodeTarget_eq_none_iff, decodeSpecialAddr_eq_none_iff]

/-- Settles O1, by evaluating the decoder on the nine words. -/
theorem sampleFramesDecode : Obligations.SampleFramesDecode := by
  unfold Obligations.SampleFramesDecode
  decide

end Sys2Proof
end

section
/-! The meaning of every instruction (40_frame_codec.md section 2): the one primitive action it sends, what that action
leaves, and the step that runs it. -/

namespace Sys2Proof.Machine

/-! ## What one BusWrite and one BusRead leave -/

theorem perform_oneDraw (a : Action) (s : State) : OneDraw s (perform a s) where
  answers := s.answered_answers a _
  draws := s.answered_draws a _
  params := s.answered_params a _
  busy := s.answered_busy a _
  lock := s.answered_executorHoldsLock a _
  hostCalls := s.answered_hostCalls a _
  executorCalls := s.answered_executorCalls a _

/-- Phase and results move as R180, R231 and R235 say. -/
theorem perform_actionEnds (a : Action) (s : State) : ActionEnds a (handFrameValue a) s (perform a s) := by
  unfold ActionEnds perform
  obtain ⟨_, _, _, hp, hx, hend⟩ | ⟨_, _, hp, hx, hend⟩ | ⟨_, hp, hx, hend⟩ | ⟨hp, hx, hend⟩ :=
    s.answered_ends a (s.nextAnswer a)
  all_goals
    rw [hp, hx]
    rw [hx] at hend
    exact hend

theorem perform_frameWritten (f : Frame) (s : State) :
    FrameWritten f (frameReaction f) s (perform (.busWrite f) s) where
  trace := by
    rw [perform, State.answered_trace]
    cases s.nextAnswer (.busWrite f) <;> rfl
  mirror := by simp [perform]
  lines := by simp [perform]
  ends := perform_actionEnds (.busWrite f) s
  draw := perform_oneDraw (.busWrite f) s

/-- NDS states no effect of the dummy frame. -/
theorem frameReaction_dummyFrame : frameReaction dummyFrame = .nothingStated := rfl

theorem reactions_busRead (ls : Lines) (f : Frame) :
    reactions ls (.busRead f) = [frameReaction f, .nothingStated] := by
  simp [reactions, framesOnBus, frameReaction_dummyFrame]

theorem perform_frameRequested (f : Frame) (s : State) :
    FrameRequested f (frameReaction f) s (perform (.busRead f) s) where
  trace := by
    rw [perform, State.answered_trace, reactions_busRead]
    cases s.nextAnswer (.busRead f) <;> rfl
  mirror := by
    rw [perform, State.answered_mirror]
    obtain h | ⟨k, _, r, hp, -, hx, -⟩ :=
      mirrorAfter_cases s.params s.phase (.busRead f) (s.nextAnswer (.busRead f)) s.mirror
    · exact fun _ => h
    · rintro (hne | herr)
      · exact absurd hp (hne k)
      · cases hx.symm.trans herr
  lines := by simp [perform]
  ends := perform_actionEnds (.busRead f) s
  draw := perform_oneDraw (.busRead f) s

/-! ## Write frames (40_frame_codec.md sections 2.1 to 2.3) -/

/-- What NDS states of a write frame (20_memory.md R74). -/
def writeReaction (m : Mode) (channels : List (GroupNo × ChanNo)) (d : Word) : Reaction :=
  match m with
  | .data => .writeInput channels d
  | .offset => .writeOffsetTrim channels d
  | .gain => .writeGainTrim channels d
  | .special => .nothingStated

theorem frameReaction_write {m : Mode} {t : ChannelAddress} (hm : m ≠ .special) (ht : t.wf = true) (d : Word) :
    frameReaction (Frame.ofFields m.bits (chcode t) d) = writeReaction m (addressed t) d := by
  unfold frameReaction
  rw [decodeFrame_write hm ht]
  cases m <;> rfl

/-- A write frame's instruction sends it, after the range check of its target. -/
theorem exec_writeInstr {m : Mode} {t : ChannelAddress} {d : Word} {i : Instr} (h : writeInstr m t d = some i)
    (s : State) : exec i s = sendWrite m t d s := by
  cases m with
  | special => cases h
  | data | offset | gain => cases t <;> obtain rfl := Option.some.inj h <;> rfl

theorem exec_writeInstr_wf {m : Mode} {t : ChannelAddress} {d : Word} {i : Instr} (h : writeInstr m t d = some i)
    (ht : t.wf = true) (s : State) :
    exec i s = .next (perform (.busWrite (Frame.ofFields m.bits (chcode t) d)) s) := by
  rw [exec_writeInstr h, sendWrite_wf (writesFrame_of_writeInstr h).mode ht]

/-- A frame as a number, from its fields (30_encoding.md R80). -/
theorem ofFields_eq_ofNat {m : BitVec 2} {a : BitVec 6} {d : Word} {n : Nat}
    (hn : n = m.toNat * 2 ^ 22 + a.toNat * 2 ^ 16 + d.toNat) : Frame.ofFields m a d = BitVec.ofNat 24 n := by
  rw [hn, ← Frame.toNat_ofFields, BitVec.ofNat_toNat, BitVec.setWidth_eq]

/-- A write frame of a well-formed target completes: the frame n, which NDS states to write the target's channels. -/
theorem write_completes {m : Mode} {t : ChannelAddress} {d : Word} {i : Instr} (s : State)
    (hi : writeInstr m t d = some i) (ht : t.wf = true) {channels : List (GroupNo × ChanNo)}
    (hchannels : addressed t = channels) {n : Nat}
    (hn : n = m.bits.toNat * 2 ^ 22 + (chcode t).toNat * 2 ^ 16 + d.toNat) :
    ∃ u, exec i s = .next u ∧ FrameWritten (BitVec.ofNat 24 n) (writeReaction m channels d) s u := by
  refine ⟨_, exec_writeInstr_wf hi ht s, ?_⟩
  rw [← ofFields_eq_ofNat hn, ← hchannels, ← frameReaction_write (writesFrame_of_writeInstr hi).mode ht]
  exact perform_frameWritten _ s

theorem wf_singleGroup (g : GroupNo) : (ChannelAddress.singleGroup g.val).wf = true := decide_eq_true g.isLt

theorem wf_singleCh (g : GroupNo) (c : ChanNo) : (ChannelAddress.singleCh g.val c.val).wf = true := by
  simp [ChannelAddress.wf]

theorem wf_chx (c : ChanNo) : (ChannelAddress.chx c.val).wf = true := decide_eq_true c.isLt

theorem wf_chxExceptGroup0 (c : ChanNo) : (ChannelAddress.chxExceptGroup0 c.val).wf = true := decide_eq_true c.isLt

theorem addressed_singleGroup (g : GroupNo) :
    addressed (.singleGroup g.val) = allChans.map fun c => (g, c) := by
  revert g
  decide

theorem addressed_chx (c : ChanNo) : addressed (.chx c.val) = [(0, c), (1, c), (2, c), (3, c), (4, c)] := by
  revert c
  decide

theorem addressed_chxExceptGroup0 (c : ChanNo) :
    addressed (.chxExceptGroup0 c.val) = [(1, c), (2, c), (3, c), (4, c)] := by
  revert c
  decide

section
variable {m : Mode} {d : Word} {i : Instr} {n : Nat} (s : State) (g : GroupNo) (c : ChanNo)

theorem write_allCh_completes (hi : writeInstr m .allCh d = some i)
    (hn : n = m.bits.toNat * 0x400000 + d.toNat) :
    ∃ u, exec i s = .next u ∧ FrameWritten (BitVec.ofNat 24 n) (writeReaction m allChannels d) s u :=
  write_completes s hi rfl rfl (by simp [hn, chcode])

theorem write_singleGroup_completes (hi : writeInstr m (.singleGroup g.val) d = some i)
    (hn : n = m.bits.toNat * 0x400000 + 0x10000 + 0x10000 * g.val + d.toNat) :
    ∃ u, exec i s = .next u ∧
      FrameWritten (BitVec.ofNat 24 n) (writeReaction m (allChans.map fun c => (g, c)) d) s u :=
  write_completes s hi (wf_singleGroup g) (addressed_singleGroup g)
    (by rw [hn, toNat_chcode_singleGroup g.isLt]; ring)

theorem write_singleCh_completes (hi : writeInstr m (.singleCh g.val c.val) d = some i)
    (hn : n = m.bits.toNat * 0x400000 + 0x80000 + 0x80000 * g.val + 0x10000 * c.val + d.toNat) :
    ∃ u, exec i s = .next u ∧ FrameWritten (BitVec.ofNat 24 n) (writeReaction m [(g, c)] d) s u :=
  write_completes s hi (wf_singleCh g c) (addressed_singleCh g c)
    (by rw [hn, toNat_chcode_singleCh g.isLt c.isLt]; ring)

theorem write_chx_completes (hi : writeInstr m (.chx c.val) d = some i)
    (hn : n = m.bits.toNat * 0x400000 + 0x300000 + 0x10000 * c.val + d.toNat) :
    ∃ u, exec i s = .next u ∧
      FrameWritten (BitVec.ofNat 24 n) (writeReaction m [(0, c), (1, c), (2, c), (3, c), (4, c)] d) s u :=
  write_completes s hi (wf_chx c) (addressed_chx c) (by rw [hn, toNat_chcode_chx c.isLt]; ring)

theorem write_chxExceptGroup0_completes (hi : writeInstr m (.chxExceptGroup0 c.val) d = some i)
    (hn : n = m.bits.toNat * 0x400000 + 0x380000 + 0x10000 * c.val + d.toNat) :
    ∃ u, exec i s = .next u ∧
      FrameWritten (BitVec.ofNat 24 n) (writeReaction m [(1, c), (2, c), (3, c), (4, c)] d) s u :=
  write_completes s hi (wf_chxExceptGroup0 c) (addressed_chxExceptGroup0 c)
    (by rw [hn, toNat_chcode_chxExceptGroup0 c.isLt]; ring)

end

/-- Settles O11: the five target forms in mode Data. -/
theorem dataWritesComplete : Obligations.DataWritesComplete := by
  unfold Obligations.DataWritesComplete
  exact fun s d g c => ⟨write_allCh_completes (m := .data) s rfl rfl,
    write_singleGroup_completes (m := .data) s g rfl rfl, write_singleCh_completes (m := .data) s g c rfl rfl,
    write_chx_completes (m := .data) s c rfl rfl, write_chxExceptGroup0_completes (m := .data) s c rfl rfl⟩

/-- Settles O12: the five target forms in mode Offset. -/
theorem offsetWritesComplete : Obligations.OffsetWritesComplete := by
  unfold Obligations.OffsetWritesComplete
  exact fun s d g c => ⟨write_allCh_completes (m := .offset) s rfl rfl,
    write_singleGroup_completes (m := .offset) s g rfl rfl, write_singleCh_completes (m := .offset) s g c rfl rfl,
    write_chx_completes (m := .offset) s c rfl rfl, write_chxExceptGroup0_completes (m := .offset) s c rfl rfl⟩

/-- Settles O13: the five target forms in mode Gain. -/
theorem gainWritesComplete : Obligations.GainWritesComplete := by
  unfold Obligations.GainWritesComplete
  exact fun s d g c => ⟨write_allCh_completes (m := .gain) s rfl rfl,
    write_singleGroup_completes (m := .gain) s g rfl rfl, write_singleCh_completes (m := .gain) s g c rfl rfl,
    write_chx_completes (m := .gain) s c rfl rfl, write_chxExceptGroup0_completes (m := .gain) s c rfl rfl⟩

/-- An instruction out of range is a write frame's, and the encoder has no value for its target. -/
theorem exec_of_not_wf {i : Instr} (hi : i.wf = false) (s : State) :
    exec i s = .next (s.finish (.general .addressOutOfRange)) := by
  obtain ⟨m, t, d, h⟩ | ⟨_, _, -, -, hwf⟩ := i.write_or_special
  · have ht : t.wf = false := (writesFrame_of_writeInstr h).wf ▸ hi
    rw [exec_writeInstr h, sendWrite_not_wf ht]
  · cases hwf.symm.trans hi

/-- Settles O16: General is the end of the frame, before any action. -/
theorem outOfRangeWriteRaisesGeneral : Obligations.OutOfRangeWriteRaisesGeneral := by
  unfold Obligations.OutOfRangeWriteRaisesGeneral
  exact fun i s hi => exec_of_not_wf hi s

/-! ## Special frames (40_frame_codec.md sections 2.4 and 2.5) -/

/-- A special frame as a number: mode 0 and the function's code. -/
theorem encodeSpecial_eq_ofNat {a : SpecialFunctionAddress} {d : Word} {n : Nat}
    (hn : n = (sfcode a).toNat * 2 ^ 16 + d.toNat) : encodeSpecial a d = BitVec.ofNat 24 n :=
  ofFields_eq_ofNat (by rw [hn]; simp)

/-- What NDS states of a special frame (20_memory.md R52, R73). -/
theorem frameReaction_encodeSpecial (a : SpecialFunctionAddress) (d : Word) :
    frameReaction (encodeSpecial a d) =
      match a with
      | .control => .writeControl d
      | .ofs0 => .writeOfs0 d
      | .ofs1 => .writeOfs1 d
      | .readBack => match decodeSelector d with | some r => .stageReadBack r | none => .nothingStated
      | .select g => .writeSelect g d
      | .selectAll => .writeSelectAll d := by
  unfold frameReaction
  rw [decodeFrame_encodeSpecial]
  cases a with
  | readBack => cases h : decodeSelector d <;> simp [h]
  | _ => rfl

theorem special_write_completes {a : SpecialFunctionAddress} {d : Word} {r : Reaction} {n : Nat} {i : Instr} (s : State)
    (hexec : exec i s = .next (perform (.busWrite (encodeSpecial a d)) s))
    (hn : n = (sfcode a).toNat * 2 ^ 16 + d.toNat) (hr : frameReaction (encodeSpecial a d) = r) :
    ∃ u, exec i s = .next u ∧ FrameWritten (BitVec.ofNat 24 n) r s u := by
  refine ⟨_, hexec, ?_⟩
  rw [← encodeSpecial_eq_ofNat hn, ← hr]
  exact perform_frameWritten _ s

/-- Settles O14: each function's frame is one BusWrite. -/
theorem specialWritesComplete : Obligations.SpecialWritesComplete := by
  unfold Obligations.SpecialWritesComplete
  refine fun s d g => ⟨special_write_completes s rfl rfl (frameReaction_encodeSpecial .control d),
    special_write_completes s rfl rfl (frameReaction_encodeSpecial .ofs0 d),
    special_write_completes s rfl rfl (frameReaction_encodeSpecial .ofs1 d),
    special_write_completes s rfl ?_ (frameReaction_encodeSpecial (.select g) d),
    special_write_completes s rfl rfl (frameReaction_encodeSpecial .selectAll d)⟩
  rw [toNat_sfcode_select]
  omega

theorem readback_completes {d : Word} {r : Reaction} {n : Nat} {i : Instr} (s : State)
    (hexec : exec i s = .next (perform (.busRead (encodeSpecial .readBack d)) s))
    (hn : n = 0x050000 + d.toNat) (hr : frameReaction (encodeSpecial .readBack d) = r) :
    ∃ u, exec i s = .next u ∧ FrameRequested (BitVec.ofNat 24 n) r s u := by
  refine ⟨_, hexec, ?_⟩
  rw [← encodeSpecial_eq_ofNat (a := .readBack) hn, ← hr]
  exact perform_frameRequested _ s

/-- `rd R` is the read-back of R's selector, which stages R. -/
theorem request_completes {r : ReadBackAddr} {n : Nat} (s : State) (hn : n = 0x050000 + (sel r).toNat) :
    ∃ u, exec r.request s = .next u ∧ FrameRequested (BitVec.ofNat 24 n) (.stageReadBack r) s u :=
  readback_completes s (exec_request r s) hn (frameReaction_encodeReadRequest r)

/-- The request of a channel's register of class k. -/
theorem channel_request_completes {r : ReadBackAddr} {k : BitVec 3} {n : Nat} (s : State) (g : GroupNo) (c : ChanNo)
    (hsel : sel r = selOf k (seq g c)) (hn : n = 0x050400 + 0x2000 * k.toNat + 0x80 * (8 * g.val + c.val)) :
    ∃ u, exec r.request s = .next u ∧ FrameRequested (BitVec.ofNat 24 n) (.stageReadBack r) s u := by
  refine request_completes s ?_
  rw [hsel, toNat_selOf_seq]
  omega

/-- Settles O15: `sf.readback` with any selector, then the `rd` forms by their registers' selectors. -/
theorem readbackRequestsComplete : Obligations.ReadbackRequestsComplete := by
  unfold Obligations.ReadbackRequestsComplete
  refine fun s d g c => ⟨readback_completes s rfl rfl (frameReaction_encodeSpecial .readBack d),
    channel_request_completes (r := .x1a g c) (k := 0#3) s g c rfl rfl,
    channel_request_completes (r := .x1b g c) (k := 1#3) s g c rfl rfl,
    channel_request_completes (r := .c g c) (k := 2#3) s g c rfl rfl,
    channel_request_completes (r := .m g c) (k := 3#3) s g c rfl rfl, request_completes (r := .control) s rfl,
    request_completes (r := .ofs0) s rfl, request_completes (r := .ofs1) s rfl,
    request_completes (r := .select g) s ?_⟩
  rw [toNat_sel_select]
  omega

/-! ## The one action of every instruction -/

theorem exec_canonical (i : Instr) (s : State) : exec i.canonical s = exec i s := pseudoInstructionsExpand.2.2 i s

/-- A special frame goes out in a BusRead where it is a read request, else in a BusWrite. -/
theorem exec_specialInstr (a : SpecialFunctionAddress) (d : Word) : ∃ act,
    (act = .busWrite (encodeSpecial a d) ∨ act = .busRead (encodeSpecial a d)) ∧
      ∀ s, exec (specialInstr a d) s = .next (perform act s) := by
  cases a with
  | readBack => exact ⟨_, .inr rfl, exec_readbackInstr d⟩
  | control | ofs0 | ofs1 | select | selectAll => exact ⟨_, .inl rfl, fun _ => rfl⟩

/-- A well-formed instruction sends its own words, whatever the state. -/
theorem exec_of_wf {i : Instr} (hi : i.wf = true) : ∃ act,
    (act = .busWrite i.encode ∨ act = .busRead i.encode) ∧ ∀ s, exec i s = .next (perform act s) := by
  obtain ⟨m, t, d, h⟩ | ⟨a, d, henc, hcanon, -⟩ := i.write_or_special
  · have hwrites := writesFrame_of_writeInstr h
    exact ⟨_, .inl rfl, fun s => by rw [hwrites.encode, exec_writeInstr_wf h (hwrites.wf ▸ hi)]⟩
  · obtain ⟨act, hact, hexec⟩ := exec_specialInstr a d
    exact ⟨act, henc ▸ hact, fun s => by rw [← exec_canonical, hcanon, hexec]⟩

/-! ## What every instruction leaves unchanged -/

/-- Every answer of `exec` is one primitive action with a frame, or the General error. -/
theorem eq_of_exec {i : Instr} {s t : State} (h : exec i s = .next t) :
    (∃ f, t = perform (.busWrite f) s) ∨ (∃ f, t = perform (.busRead f) s) ∨
      t = s.finish (.general .addressOutOfRange) := by
  obtain ⟨f, hf⟩ | ⟨f, hf⟩ | hf := exec_cases i s <;> cases hf.symm.trans h
  · exact .inl ⟨f, rfl⟩
  · exact .inr (.inl ⟨f, rfl⟩)
  · exact .inr (.inr rfl)

/-- Settles O17: the control and select bytes are never filed, and the mirror is written in read_all only. -/
theorem instructionsKeepBlockState : Obligations.InstructionsKeepBlockState := by
  unfold Obligations.InstructionsKeepBlockState
  intro i s t h
  have calls := exec_sameCalls h
  obtain ⟨f, rfl⟩ | ⟨f, rfl⟩ | rfl := eq_of_exec h
  · have w := perform_frameWritten f s
    exact ⟨w.lines, congrArg _ w.mirror, congrArg _ w.mirror, w.draw.params, w.draw.busy, calls.lock, calls.hostCalls,
      calls.executorCalls, fun _ => w.mirror⟩
  · have r := perform_frameRequested f s
    exact ⟨r.lines, by simp [perform], by simp [perform], r.draw.params, r.draw.busy, calls.lock, calls.hostCalls,
      calls.executorCalls, fun hk => r.mirror (.inl hk)⟩
  · exact ⟨rfl, rfl, rfl, rfl, rfl, rfl, rfl, rfl, fun _ => rfl⟩

/-! ## The step that runs a frame -/

theorem decodeInstr_of_decodeTableWord {nbits w : Nat} {i : Instr} (h : decodeTableWord nbits w = some i) :
    decodeInstr (tableFrame nbits w) = .ok i := by
  unfold decodeTableWord Frame.bytes at h
  rw [decode_bytes] at h
  cases hd : decodeInstr (tableFrame nbits w) with
  | error e => simp [hd, Except.map] at h
  | ok j => simpa [hd, Except.map] using h

theorem placeFrame_ready (w : Frame) (s : State) : (placeFrame w s).Ready (.frame w) s.hostCalls := ⟨rfl, rfl, rfl⟩

/-- Settles O19: a waiting frame is decoded and run; a placed table word is a waiting frame. -/
theorem stepRunsDecodedFrame : Obligations.StepRunsDecodedFrame := by
  unfold Obligations.StepRunsDecodedFrame
  exact ⟨fun s w rest i hready hd => step_frame hready hd,
    fun s nbits w i h => step_frame (placeFrame_ready _ s) (decodeInstr_of_decodeTableWord h)⟩

theorem recognised_iff (w : Frame) : recognised w ↔ ∃ i, decodeInstr w = .ok i := by
  have herr := decodeInstr_eq_error_iff w
  cases hd : decodeInstr w with
  | ok i => simpa [recognised, hd] using herr
  | error e => simpa [recognised, hd] using herr

/-- Only a hand-sent frame of no row keeps a step from answering. -/
theorem step_answers {s : State} (h : ∀ w rest, s.Ready (.frame w) rest → recognised w) : ∃ t, step s = .next t := by
  cases hp : s.phase with
  | op o k => exact ⟨_, step_op hp⟩
  | idle =>
    cases hl : s.executorHoldsLock with
    | true => exact ⟨_, step_executor hp hl⟩
    | false =>
      cases hc : s.hostCalls with
      | nil => exact ⟨_, step_waiting hp hl hc⟩
      | cons c rest =>
        cases c with
        | op o => exact ⟨_, step_host_op ⟨hp, hl, hc⟩⟩
        | startExecutor => exact ⟨_, step_start_executor ⟨hp, hl, hc⟩⟩
        | frame w =>
          obtain ⟨i, hi⟩ := (recognised_iff w).1 (h w rest ⟨hp, hl, hc⟩)
          rw [step_frame ⟨hp, hl, hc⟩ hi]
          obtain ⟨f, hf⟩ | ⟨f, hf⟩ | hf := exec_cases i { s with hostCalls := rest }
          · exact ⟨_, hf⟩
          · exact ⟨_, hf⟩
          · exact ⟨_, hf⟩

/-- Settles O20: either every frame that could come next is recognised, or the one that comes is refused. -/
theorem stepAnswersUnlessUnrecognised : Obligations.StepAnswersUnlessUnrecognised := by
  unfold Obligations.StepAnswersUnlessUnrecognised
  intro s
  by_cases h : ∀ w rest, s.Ready (.frame w) rest → recognised w
  · exact .inl ⟨step_answers h, h⟩
  · push Not at h
    obtain ⟨w, rest, hready, hw⟩ := h
    simp only [recognised, ne_eq, not_forall, not_not] at hw
    obtain ⟨m, a, d, hd⟩ := hw
    obtain ⟨rfl, rfl, rfl⟩ := fields_of_decodeFrame_unrecognised hd
    exact .inr ⟨w, rest, hready, hd, step_unrecognised hready (decodeInstr_of_unrecognised hd)⟩

/-! ## The frames of an operation in progress (40_frame_codec.md R157) -/

/-- The requests of a scan are of the kinds R193 lists: no control or select register is among them. -/
theorem emittedBy_readAll_of_mem_readList {r : ReadBackAddr} (h : r ∈ readList) : emittedBy .readAll r.request := by
  simp only [readList, List.mem_append, List.mem_flatMap, List.mem_cons, List.not_mem_nil, or_false] at h
  obtain ⟨⟨g, c⟩, -, rfl | rfl | rfl | rfl⟩ | rfl | rfl | rfl := h
  · exact .inl ⟨g, c, .inl rfl⟩
  · exact .inl ⟨g, c, .inr (.inl rfl)⟩
  · exact .inl ⟨g, c, .inr (.inr (.inl rfl))⟩
  · exact .inl ⟨g, c, .inr (.inr (.inr rfl))⟩
  · exact .inr (.inl rfl)
  · exact .inr (.inr rfl)
  · exact .inr (.inr rfl)

/-- The action `a` is the meaning of an instruction with the frame f, of the kinds that `o` emits. -/
def SendsFor (o : HostOp) (a : Action) (f : Frame) : Prop :=
  ∃ i, decodeInstr f = .ok i ∧ emittedBy o i ∧ ∀ s, exec i s = .next (perform a s)

/-- The BusWrite of a write frame is the meaning of the frame's instruction. -/
theorem sendsFor_of_mem_writeAction {o : HostOp} {m : Mode} {t : ChannelAddress} {d : Word} {a : Action} {f : Frame}
    (ha : a ∈ writeAction m t d) (hf : actionFrame a = some f)
    (hemit : ∀ i, writeInstr m t d = some i → emittedBy o i) : SendsFor o a f := by
  unfold writeAction at ha
  cases he : encodeWrite m t d with
  | none => simp [he] at ha
  | some e =>
    obtain rfl : a = .busWrite e := by simpa [he] using ha
    cases hf
    obtain ⟨hm, ht, rfl⟩ := (encodeWrite_eq_some m t d _).1 he
    obtain ⟨i, hi⟩ := exists_writeInstr hm t d
    exact ⟨i, decodeInstr_of_write (decodeFrame_write hm ht d) hi, hemit i hi, exec_writeInstr_wf hi ht⟩

/-- A request of a scan is the meaning of the register's `rd` form. -/
theorem sendsFor_request {r : ReadBackAddr} (hr : r ∈ readList) :
    SendsFor .readAll (.busRead (encodeReadRequest r)) (encodeReadRequest r) := by
  refine ⟨r.request, ?_, emittedBy_readAll_of_mem_readList hr, exec_request r⟩
  rw [← readbackInstr_sel]
  exact decodeInstr_of_special (decodeFrame_encodeSpecial .readBack (sel r))

/-- Each action of an operation that sends a frame is the meaning of one of the operation's instructions. -/
theorem sendsFor_of_mem_actionsOf {p : Params} {m : Mirror} {o : HostOp} {a : Action} {f : Frame}
    (ha : a ∈ actionsOf p m o) (hf : actionFrame a = some f) : SendsFor o a f := by
  cases o with
  | setCode code t => exact sendsFor_of_mem_writeAction ha hf fun _ hi => hi
  | setVoltage v t =>
    simp only [actionsOf, voltageAction] at ha
    split at ha
    · exact sendsFor_of_mem_writeAction ha hf fun _ hi => ⟨_, hi⟩
    · cases ha
  | setGain value =>
    exact sendsFor_of_mem_writeAction (m := .gain) (t := .allCh) ha hf fun _ hi => (Option.some.inj hi).symm
  | setOffset value =>
    exact sendsFor_of_mem_writeAction (m := .offset) (t := .allCh) ha hf fun _ hi => (Option.some.inj hi).symm
  | readAll =>
    obtain ⟨r, hr, rfl⟩ := List.mem_map.1 ha
    cases hf
    exact sendsFor_request hr
  | getReg | getVref => cases ha
  | init | reset | clear | restoreClear | setLdac | clearLdac =>
    obtain ⟨l, v, rfl⟩ : ∃ l v, a = .lineDrive l v := by
      simp only [actionsOf, List.mem_append, List.mem_map, List.mem_cons, List.not_mem_nil, or_false] at ha
      grind
    cases hf

/-- Settles O21: the action is one of the operation's, so it is an instruction's meaning. -/
theorem operationFramesAreInstructions : Obligations.OperationFramesAreInstructions := by
  unfold Obligations.OperationFramesAreInstructions
  intro s o k a f hp _ ha hf
  obtain ⟨i, hd, hemit, hexec⟩ := sendsFor_of_mem_actionsOf (List.mem_of_getElem? ha) hf
  exact ⟨i, hd, hemit, by rw [step_op hp, continueOp_action ha, hexec]⟩

end Sys2Proof.Machine
end

section
/-! What one step does to the block, whatever the call behind it (10_state.md, 20_memory.md section 2): one primitive
action, one result without an action, the start of an operation, or nothing. The whole-machine rules follow. -/

namespace Sys2Proof.Machine

/-- `s` with other waiting calls and another holder of the lock: what serving a call changes before it acts. -/
def State.withCalls (s : State) (host : List HostCall) (executor : List ExecutorCall) (lock : Bool) : State :=
  { s with hostCalls := host, executorCalls := executor, executorHoldsLock := lock }

@[simp] theorem State.withCalls_mirror (s : State) (h e l) : (s.withCalls h e l).mirror = s.mirror := rfl
@[simp] theorem State.withCalls_lines (s : State) (h e l) : (s.withCalls h e l).lines = s.lines := rfl
@[simp] theorem State.withCalls_phase (s : State) (h e l) : (s.withCalls h e l).phase = s.phase := rfl
@[simp] theorem State.withCalls_params (s : State) (h e l) : (s.withCalls h e l).params = s.params := rfl
@[simp] theorem State.withCalls_answers (s : State) (h e l) : (s.withCalls h e l).answers = s.answers := rfl
@[simp] theorem State.withCalls_draws (s : State) (h e l) : (s.withCalls h e l).draws = s.draws := rfl
@[simp] theorem State.withCalls_trace (s : State) (h e l) : (s.withCalls h e l).trace = s.trace := rfl
@[simp] theorem State.withCalls_results (s : State) (h e l) : (s.withCalls h e l).results = s.results := rfl

/-- The action that a step from `s` may issue: the next of the operation in progress, or, between operations, the frame
of an instruction sent by hand. -/
def Issues (s : State) (a : Action) : Prop :=
  (∃ o k, s.phase = .op o k ∧ (actionsOf s.params s.mirror o)[k]? = some a) ∨
  (s.phase = .idle ∧ ∃ f, recognised f ∧ (a = .busWrite f ∨ a = .busRead f))

/-- What a step makes of `u`, the state `s` after a call was taken. -/
inductive StepEffect (s u : State) : State → Prop
  | acted (a : Action) (h : Issues s a) : StepEffect s u (perform a u)
  | returned (v : Value) (h : s.phase ≠ .idle) : StepEffect s u (u.finish (.ok v))
  | refused (c : Check) (h : s.phase = .idle) : StepEffect s u (u.finish (.general c))
  | started (o : HostOp) (h : s.phase = .idle) (hc : operandCheck o = none) : StepEffect s u { u with phase := .op o 0 }
  | waited : StepEffect s u u

theorem continueOp_effect {s : State} {o : HostOp} {k : Nat} (hp : s.phase = .op o k) :
    StepEffect s s (continueOp o k s) := by
  cases ha : (actionsOf s.params s.mirror o)[k]? with
  | some a =>
    rw [continueOp_action ha]
    exact .acted a (.inl ⟨o, k, hp, ha⟩)
  | none =>
    rw [continueOp_return (List.getElem?_eq_none_iff.1 ha)]
    exact .returned _ (by simp [hp])

theorem startOp_effect {s : State} (hp : s.phase = .idle) (o : HostOp) (u : State) : StepEffect s u (startOp o u) := by
  cases hc : operandCheck o with
  | none =>
    rw [startOp_checked hc]
    exact .started o hp hc
  | some c =>
    rw [startOp_refused hc]
    exact .refused c hp

/-- A decoded frame goes out as it is: its words are the instruction's. -/
theorem exec_effect {s u t : State} {w : Frame} {i : Instr} (hp : s.phase = .idle) (hd : decodeInstr w = .ok i)
    (he : exec i u = .next t) : StepEffect s u t := by
  obtain ⟨hwf, -, rfl⟩ := wf_canonical_encode_of_decodeInstr hd
  obtain ⟨a, ha, hexec⟩ := exec_of_wf hwf
  cases (hexec u).symm.trans he
  exact .acted a (.inr ⟨hp, _, (recognised_iff _).2 ⟨i, hd⟩, ha⟩)

/-- Every step that answers has one of these effects, after it has taken a call or none. -/
theorem step_effect {s t : State} (h : step s = .next t) : ∃ host executor lock,
    StepEffect s (s.withCalls host executor lock) t := by
  obtain ⟨o, k, hp, rfl⟩ | ⟨hp, hl, rfl⟩ | ⟨hp, hl, hc, rfl⟩ | ⟨o, rest, ⟨hp, hl, -⟩, rfl⟩ | ⟨rest, ⟨hp, -, -⟩, rfl⟩ |
    ⟨w, rest, i, ⟨hp, hl, -⟩, hd, he⟩ := step_cases h
  · exact ⟨_, _, _, continueOp_effect hp⟩
  · unfold serveExecutor
    split
    case h_1 => exact ⟨_, _, _, .waited⟩
    case h_2 code target rest _ => exact ⟨_, rest, _, startOp_effect hp (.setCode code target) _⟩
    case h_3 rest _ => exact ⟨_, rest, false, .waited⟩
  · exact ⟨_, _, _, .waited⟩
  · exact ⟨rest, _, _, startOp_effect hp o _⟩
  · exact ⟨rest, _, true, .waited⟩
  · exact ⟨rest, _, _, exec_effect hp hd he⟩

/-! ## The mirror (10_state.md sections 2 and 5) -/

/-- Settles O47: the only action that files a response is a read of the operation read_all. -/
theorem onlyReadAllWritesMirror : Obligations.OnlyReadAllWritesMirror := by
  unfold Obligations.OnlyReadAllWritesMirror
  intro s t h
  obtain ⟨host, executor, lock, e⟩ := step_effect h
  cases e with
  | acted a _ =>
    refine ⟨fun hne => ?_, by simp [perform], by simp [perform], by simp [perform]⟩
    rw [perform, State.answered_mirror] at hne
    obtain hm | ⟨k, _, _, hp, -⟩ := mirrorAfter_cases s.params s.phase a
      ((s.withCalls host executor lock).nextAnswer a) s.mirror
    · exact absurd hm hne
    · exact ⟨k, hp⟩
  | returned | refused | started | waited => exact ⟨fun hne => absurd rfl hne, rfl, rfl, rfl⟩

/-! ## The lines (42_control_fsm.md section 2) -/

/-- The operations that drive a line. -/
def drivenBy : Line → List HostOp
  | .reset => [.init, .reset]
  | .clr => [.init, .clear, .restoreClear]
  | .ldac => [.init, .setLdac, .clearLdac]

theorem lineDrive_notMem_writeAction (l : Line) (v : Drive) (m : Mode) (t : ChannelAddress) (d : Word) :
    Action.lineDrive l v ∉ writeAction m t d := by
  unfold writeAction
  split <;> simp

theorem mem_drivenBy_of_lineDrive {p : Params} {m : Mirror} {o : HostOp} {l : Line} {v : Drive}
    (h : .lineDrive l v ∈ actionsOf p m o) : o ∈ drivenBy l := by
  cases o with
  | setCode code t => exact absurd h (lineDrive_notMem_writeAction _ _ _ _ _)
  | setVoltage volts t =>
    simp only [actionsOf, voltageAction] at h
    split at h
    · exact absurd h (lineDrive_notMem_writeAction _ _ _ _ _)
    · cases h
  | setGain value => exact absurd h (lineDrive_notMem_writeAction l v .gain .allCh value)
  | setOffset value => exact absurd h (lineDrive_notMem_writeAction l v .offset .allCh value)
  | readAll =>
    obtain ⟨r, -, hr⟩ := List.mem_map.1 h
    cases hr
  | getReg | getVref => cases h
  | init | reset | clear | restoreClear | setLdac | clearLdac => cases l <;> simp [actionsOf, drivenBy] at h ⊢

/-- A line an action moves is the one it drives. -/
theorem linesAfter_get_of_not_lineDrive {l : Line} {a : Action} (ha : ∀ v, a ≠ .lineDrive l v) (x : Answer)
    (ls : Lines) : (linesAfter a x ls).get l = ls.get l := by
  cases a with
  | lineDrive k v =>
    have hk : l ≠ k := by
      rintro rfl
      exact ha v rfl
    simp [linesAfter, hk]
  | busWrite f => rfl
  | busRead f => rfl

/-- A line that a step moves belongs to the operation in progress. -/
theorem step_moves_line {s t : State} (h : step s = .next t) {l : Line} (hne : t.lines.get l ≠ s.lines.get l) :
    ∃ o k, s.phase = .op o k ∧ o ∈ drivenBy l := by
  obtain ⟨host, executor, lock, e⟩ := step_effect h
  cases e with
  | acted a ha =>
    rw [perform, State.answered_lines] at hne
    obtain ⟨v, rfl⟩ : ∃ v, a = .lineDrive l v := by
      by_contra hv
      exact hne (linesAfter_get_of_not_lineDrive (not_exists.1 hv) _ _)
    obtain ⟨o, k, hp, hk⟩ | ⟨-, f, -, hf | hf⟩ := ha
    · exact ⟨o, k, hp, mem_drivenBy_of_lineDrive (List.mem_of_getElem? hk)⟩
    · cases hf
    · cases hf
  | returned | refused | started | waited => exact absurd rfl hne

/-- Settles O48: line by line. -/
theorem linesMoveOnlyByTheirOperations : Obligations.LinesMoveOnlyByTheirOperations := by
  unfold Obligations.LinesMoveOnlyByTheirOperations
  refine fun s t h => ⟨fun hne => ?_, fun hne => ?_, fun hne => ?_⟩
  · obtain ⟨o, k, hp, ho⟩ := step_moves_line h (l := .reset) hne
    exact ⟨k, by simpa [drivenBy, hp] using ho⟩
  · obtain ⟨o, k, hp, ho⟩ := step_moves_line h (l := .clr) hne
    exact ⟨k, by simpa [drivenBy, hp] using ho⟩
  · obtain ⟨o, k, hp, ho⟩ := step_moves_line h (l := .ldac) hne
    exact ⟨k, by simpa [drivenBy, hp] using ho⟩

/-! ## Actions, draws and results (20_memory.md section 2, 60_exceptions.md section 3) -/

/-- One action returns at most one result, never General, and then the block is Idle. -/
theorem perform_results (a : Action) (s : State) :
    (perform a s).results = s.results ∨
      ∃ r, (perform a s).results = s.results ++ [r] ∧ (∀ c, r ≠ .general c) ∧ (perform a s).phase = .idle := by
  obtain ⟨_, _, _, -, -, -, hr⟩ | ⟨_, _, -, -, hp, hr⟩ | ⟨_, -, -, hp, hr⟩ | ⟨-, -, hp, hr⟩ :=
    s.answered_ends a (s.nextAnswer a)
  · exact .inl hr
  · exact .inr ⟨_, hr, nofun, hp⟩
  · exact .inr ⟨_, hr, nofun, hp⟩
  · exact .inr ⟨_, hr, nofun, hp⟩

/-- Settles O49: an action is one event and one draw; a result ends what the step was doing. -/
theorem stepIssuesAtMostOneAction : Obligations.StepIssuesAtMostOneAction := by
  unfold Obligations.StepIssuesAtMostOneAction
  intro s t h
  obtain ⟨host, executor, lock, e⟩ := step_effect h
  cases e with
  | acted a _ =>
    obtain hr | ⟨r, hr, -, hp⟩ := perform_results a (s.withCalls host executor lock)
    · exact ⟨_, [], State.answered_trace .., le_rfl, State.answered_draws .., by simpa using hr, by simp, by simp⟩
    · exact ⟨_, [r], State.answered_trace .., le_rfl, State.answered_draws .., hr, le_rfl, fun _ => hp⟩
  | returned v _ => exact ⟨[], [.ok v], by simp, by simp, rfl, rfl, le_rfl, fun _ => rfl⟩
  | refused c _ => exact ⟨[], [.general c], by simp, by simp, rfl, rfl, le_rfl, fun _ => rfl⟩
  | started | waited => exact ⟨[], [], by simp, by simp, rfl, by simp, by simp, by simp⟩

/-- Settles O51: General is the result of a refusal alone, and a refusal issues no action. -/
theorem generalHasNoEffect : Obligations.GeneralHasNoEffect := by
  unfold Obligations.GeneralHasNoEffect
  intro s t c h hres
  obtain ⟨host, executor, lock, e⟩ := step_effect h
  cases e with
  | acted a _ =>
    obtain hr | ⟨r, hr, hne, -⟩ := perform_results a (s.withCalls host executor lock)
    · simp [hr] at hres
    · simp [hr, hne] at hres
  | returned => simp at hres
  | refused => exact ⟨rfl, rfl, rfl, rfl, rfl, rfl⟩
  | started | waited => simp at hres

/-! ## The invariant (10_state.md sections 2 to 4) -/

/-- Settles O45: nothing is recorded yet, and every line is Unknown. -/
theorem resetMeetsInvariant : Obligations.ResetMeetsInvariant := by
  unfold Obligations.ResetMeetsInvariant
  exact ⟨rfl, rfl, trivial, rfl, nofun⟩

/-- The lines that a trace leaves move with its last event as the block's lines do. -/
theorem linesOfTrace_append (tr : List Event) (a : Action) (x : Answer) (rs : List Reaction) :
    linesOfTrace (tr ++ [⟨a, replyOf a x, rs⟩]) = linesAfter a x (linesOfTrace tr) := by
  rw [linesOfTrace, List.foldl_append]
  cases a with
  | lineDrive l v => cases x <;> rfl
  | busWrite f => cases x <;> rfl
  | busRead f => cases x <;> rfl

/-- No unused frame is ever issued (30_encoding.md R99). -/
theorem Issues.recognised {s : State} {a : Action} {f : Frame} (h : Issues s a) (hf : actionFrame a = some f) :
    recognised f := by
  obtain ⟨o, k, -, ha⟩ | ⟨-, w, hw, rfl | rfl⟩ := h
  · obtain ⟨i, hi, -⟩ := sendsFor_of_mem_actionsOf (List.mem_of_getElem? ha) hf
    exact (recognised_iff f).2 ⟨i, hi⟩
  · cases hf
    exact hw
  · cases hf
    exact hw

theorem phaseLegal_of_idle {s : State} (h : s.phase = .idle) : phaseLegal s := by
  rw [phaseLegal, h]
  trivial

theorem phaseLegal_iff_of_op {s : State} {o : HostOp} {k : Nat} (h : s.phase = .op o k) :
    phaseLegal s ↔ operandCheck o = none ∧ k ≤ (actionsOf s.params s.mirror o).length := by
  rw [phaseLegal, h]

/-- After an action the phase is legal: it was one of the operation's actions that was completed. -/
theorem perform_phaseLegal {s : State} {a : Action} (hs : phaseLegal s) (ha : Issues s a) (host : List HostCall)
    (executor : List ExecutorCall) (lock : Bool) : phaseLegal (perform a (s.withCalls host executor lock)) := by
  obtain ⟨o, k, _, hp, -, hend, -⟩ | ⟨_, _, -, -, hend, -⟩ | ⟨_, -, -, hend, -⟩ | ⟨-, -, hend, -⟩ :=
    (s.withCalls host executor lock).answered_ends a ((s.withCalls host executor lock).nextAnswer a)
  · rw [State.withCalls_phase] at hp
    obtain ⟨o', k', hp', hk⟩ | ⟨hp', -⟩ := ha <;> cases hp.symm.trans hp'
    obtain ⟨hlt, -⟩ := List.getElem?_eq_some_iff.1 hk
    refine (phaseLegal_iff_of_op hend).2 ⟨((phaseLegal_iff_of_op hp).1 hs).1, ?_⟩
    rw [State.answered_params, State.answered_mirror, State.withCalls_phase, hp, actionsOf_mirrorAfter]
    exact hlt
  · exact phaseLegal_of_idle hend
  · exact phaseLegal_of_idle hend
  · exact phaseLegal_of_idle hend

/-- An action keeps the invariant. -/
theorem perform_inv {s : State} {a : Action} (hs : s.Inv) (ha : Issues s a) (host : List HostCall)
    (executor : List ExecutorCall) (lock : Bool) : (perform a (s.withCalls host executor lock)).Inv where
  lines := by
    rw [perform, State.answered_lines, State.answered_trace, linesOfTrace_append, State.withCalls_lines,
      State.withCalls_trace, hs.lines]
  draws := by simp [perform, hs.draws]
  phase := perform_phaseLegal hs.phase ha host executor lock
  control := by
    rw [controlReserved, perform, State.answered_mirror, mirrorAfter_control]
    exact hs.control
  frames e he f hf := by
    rw [perform, State.answered_trace, List.mem_append, List.mem_singleton] at he
    obtain he | rfl := he
    · exact hs.frames e he f hf
    · exact ha.recognised hf

/-- Settles O46: an action keeps the invariant, and everything else a step does moves phase, calls and results only. -/
theorem stepKeepsInvariant : Obligations.StepKeepsInvariant := by
  unfold Obligations.StepKeepsInvariant
  intro s t hs h
  obtain ⟨host, executor, lock, e⟩ := step_effect h
  cases e with
  | acted a ha => exact perform_inv hs ha host executor lock
  | returned | refused => exact ⟨hs.lines, hs.draws, trivial, hs.control, hs.frames⟩
  | started o _ hc => exact ⟨hs.lines, hs.draws, ⟨hc, Nat.zero_le _⟩, hs.control, hs.frames⟩
  | waited => exact ⟨hs.lines, hs.draws, hs.phase, hs.control, hs.frames⟩

/-! ## What no step depends on (10_state.md sections 1 and 3) -/

/-- `s` with its BUSY input changed by `busy`, and with an earlier trace and earlier results before its own. -/
def State.withPast (busy : Level → Level) (tr : List Event) (rs : List Result) (s : State) : State :=
  { s with busy := busy s.busy, trace := tr ++ s.trace, results := rs ++ s.results }

section
variable (busy : Level → Level) (tr : List Event) (rs : List Result)

theorem finish_withPast (r : Result) (s : State) :
    (s.withPast busy tr rs).finish r = (s.finish r).withPast busy tr rs := by
  simp [State.finish, State.withPast]

theorem advance_withPast (a : Action) (x : Answer) (s : State) :
    (s.withPast busy tr rs).advance a x = (s.advance a x).withPast busy tr rs := by
  have hphase : (s.withPast busy tr rs).phase = s.phase := rfl
  cases hp : s.phase <;> cases x <;> simp only [State.advance, hphase, hp, finish_withPast]
  rfl

theorem answered_withPast (a : Action) (x : Answer) (s : State) :
    (s.withPast busy tr rs).answered a x = (s.answered a x).withPast busy tr rs := by
  rw [State.answered, State.answered, ← advance_withPast]
  simp [State.withPast, State.record, State.drawn]

theorem perform_withPast (a : Action) (s : State) :
    perform a (s.withPast busy tr rs) = (perform a s).withPast busy tr rs :=
  answered_withPast busy tr rs a (s.nextAnswer a) s

theorem startOp_withPast (o : HostOp) (s : State) :
    startOp o (s.withPast busy tr rs) = (startOp o s).withPast busy tr rs := by
  cases hc : operandCheck o with
  | none =>
    rw [startOp_checked hc, startOp_checked hc]
    rfl
  | some c => rw [startOp_refused hc, startOp_refused hc, finish_withPast]

theorem continueOp_withPast (o : HostOp) (k : Nat) (s : State) :
    continueOp o k (s.withPast busy tr rs) = (continueOp o k s).withPast busy tr rs := by
  cases ha : (actionsOf s.params s.mirror o)[k]? with
  | some a => rw [continueOp_action ha, continueOp_action (s := s.withPast busy tr rs) ha, perform_withPast]
  | none =>
    have hk := List.getElem?_eq_none_iff.1 ha
    rw [continueOp_return hk, continueOp_return (s := s.withPast busy tr rs) hk, ← finish_withPast]
    rfl

theorem serveExecutor_withPast (s : State) :
    serveExecutor (s.withPast busy tr rs) = (serveExecutor s).withPast busy tr rs := by
  have hcalls : (s.withPast busy tr rs).executorCalls = s.executorCalls := rfl
  unfold serveExecutor
  rw [hcalls]
  split
  case h_1 => rfl
  case h_2 code target rest _ =>
    exact startOp_withPast busy tr rs (.setCode code target) { s with executorCalls := rest }
  case h_3 => rfl

/-- An instruction's action or refusal is the same in every state. -/
theorem exec_withPast (i : Instr) (s : State) :
    exec i (s.withPast busy tr rs) = mapNext (State.withPast busy tr rs) (exec i s) := by
  cases hi : i.wf with
  | true =>
    obtain ⟨a, -, hexec⟩ := exec_of_wf hi
    rw [hexec, hexec, mapNext, perform_withPast]
  | false => rw [exec_of_not_wf hi, exec_of_not_wf hi, mapNext, finish_withPast]

/-- Phase, lock, calls, mirror, parameters and the oracle's answers decide a step. -/
theorem step_withPast (s : State) :
    step (s.withPast busy tr rs) = mapNext (State.withPast busy tr rs) (step s) := by
  cases hp : s.phase with
  | op o k => rw [step_op hp, step_op (s := s.withPast busy tr rs) hp, mapNext, continueOp_withPast]
  | idle =>
    cases hl : s.executorHoldsLock with
    | true =>
      rw [step_executor hp hl, step_executor (s := s.withPast busy tr rs) hp hl, mapNext, serveExecutor_withPast]
    | false =>
      cases hc : s.hostCalls with
      | nil => rw [step_waiting hp hl hc, step_waiting (s := s.withPast busy tr rs) hp hl hc, mapNext]
      | cons c rest =>
        have hready : s.Ready c rest := ⟨hp, hl, hc⟩
        have hready' : (s.withPast busy tr rs).Ready c rest := ⟨hp, hl, hc⟩
        cases c with
        | op o =>
          rw [step_host_op hready, step_host_op hready', mapNext, ← startOp_withPast]
          rfl
        | startExecutor =>
          rw [step_start_executor hready, step_start_executor hready']
          rfl
        | frame w =>
          cases hd : decodeInstr w with
          | ok i =>
            rw [step_frame hready hd, step_frame hready' hd, ← exec_withPast]
            rfl
          | error e =>
            rw [step_unrecognised hready hd, step_unrecognised hready' hd]
            rfl

end

/-- Settles O53: BUSY replaced, with nothing put before the trace. -/
theorem busyIsNeverSampled : Obligations.BusyIsNeverSampled := by
  unfold Obligations.BusyIsNeverSampled
  exact fun s b => step_withPast (fun _ => b) [] [] s

/-- Settles O54: a past put before an empty one. -/
theorem pastErrorsLeaveNoMark : Obligations.PastErrorsLeaveNoMark := by
  unfold Obligations.PastErrorsLeaveNoMark
  intro s tr rs
  have hpast : { s with trace := tr, results := rs } =
      State.withPast id tr rs { s with trace := [], results := [] } := by simp [State.withPast]
  rw [hpast]
  exact step_withPast id tr rs _

end Sys2Proof.Machine
end

section
/-! What NDS states of a line drive (20_memory.md section 5), and what one LineDrive does to the lines. -/

namespace Sys2Proof.Machine

/-- Settles O55: by the level the line was last known to have. -/
theorem statedLineReactions : Obligations.StatedLineReactions := by
  unfold Obligations.StatedLineReactions
  refine ⟨fun ls h => ?_, fun ls h => ?_, fun ls h => ?_, fun _ => rfl, fun _ => rfl⟩
  · simp [lineReaction, h]
  · simp [lineReaction, h]
  · cases hclr : ls.clr with
    | low => exact absurd hclr h
    | high | unknown => simp [lineReaction, hclr]

theorem perform_lineDrive_get (s : State) (l k : Line) (v : Drive) :
    (perform (.lineDrive l v) s).lines.get k =
      if k = l then levelAfter v (s.nextAnswer (.lineDrive l v)) else s.lines.get k := by
  rw [perform, State.answered_lines, linesAfter, Lines.get_put]

/-- Settles O22: the level of the line driven by the answer, the other lines as before. -/
theorem lineDriveSetsItsLine : Obligations.LineDriveSetsItsLine := by
  unfold Obligations.LineDriveSetsItsLine
  refine fun s l v => ⟨fun r hx => ?_, fun hx => ?_, fun k hk => ?_, ?_⟩
  · rw [perform_lineDrive_get, if_pos rfl, hx, levelAfter]
  · rw [perform_lineDrive_get, if_pos rfl, hx, levelAfter]
  · rw [perform_lineDrive_get, if_neg hk]
  · rw [perform, State.answered_mirror, mirrorAfter_lineDrive]

end Sys2Proof.Machine
end

section
/-! Host operations that write frames or drive lines (42_control_fsm.md sections 2 and 3): the whole state after the
first actions of such an operation, and the ends of each operation. -/

namespace Sys2Proof.Machine

/-! ## A run of actions answered Ok, none of them a BusRead -/

/-- The lines after these actions, all answered Ok. -/
def drivenLines (acts : List Action) (ls : Lines) : Lines := acts.foldl (fun ls a => linesAfter a (.ok default) ls) ls

/-- The events of these actions, all answered Ok, from the lines before the first. -/
def okTrace : Lines → List Action → List Event
  | _, [] => []
  | ls, a :: acts => ⟨a, .ok, reactions ls a⟩ :: okTrace (linesAfter a (.ok default) ls) acts

theorem drivenLines_snoc (acts : List Action) (a : Action) (ls : Lines) :
    drivenLines (acts ++ [a]) ls = linesAfter a (.ok default) (drivenLines acts ls) := by
  simp [drivenLines]

theorem okTrace_snoc (ls : Lines) (acts : List Action) (a : Action) :
    okTrace ls (acts ++ [a]) = okTrace ls acts ++ [⟨a, .ok, reactions (drivenLines acts ls) a⟩] := by
  induction acts generalizing ls with
  | nil => rfl
  | cons b acts ih =>
    simp only [List.cons_append, okTrace, ih]
    rfl

theorem okTrace_map_action (ls : Lines) (acts : List Action) : (okTrace ls acts).map (·.action) = acts := by
  induction acts generalizing ls with
  | nil => rfl
  | cons a acts ih => simp [okTrace, ih]

/-- The bytes of an answer Ok are not looked at for a line. -/
theorem linesAfter_ok (a : Action) (r : Response) (ls : Lines) :
    linesAfter a (.ok r) ls = linesAfter a (.ok default) ls := by
  cases a <;> rfl

/-- `s` after n actions of the operation `o`, all answered Ok and none of them a BusRead. -/
def State.afterActions (s : State) (o : HostOp) (n : Nat) : State :=
  { s with
    phase := .op o n
    lines := drivenLines ((actionsOf s.params s.mirror o).take n) s.lines
    answers := s.answers.drop n
    draws := s.draws + n
    trace := s.trace ++ okTrace s.lines ((actionsOf s.params s.mirror o).take n) }

section
variable {s : State} {o : HostOp} {n : Nat} {rest : List HostCall}

theorem State.afterActions_nextAnswer (s : State) (o : HostOp) (n : Nat) (a : Action) :
    (s.afterActions o n).nextAnswer a = s.answerAt n a := by
  rw [State.nextAnswer_eq_answerAt, State.answerAt_drop (s := s) (n := n) rfl rfl, Nat.add_zero]

/-- One action more. -/
theorem step_afterActions_ok {a : Action} {r : Response} (ha : (actionsOf s.params s.mirror o)[n]? = some a)
    (hread : ∀ f, a ≠ .busRead f) (hx : s.answerAt n a = .ok r) :
    step (s.afterActions o n) = .next (s.afterActions o (n + 1)) := by
  rw [step_action_ok (s := s.afterActions o n) rfl ha (by rw [s.afterActions_nextAnswer, hx]), linesAfter_ok,
    mirrorAfter_of_not_busRead hread, replyOf_ok_of_not_busRead hread]
  simp only [State.afterActions, List.take_add_one, ha, Option.toList_some, drivenLines_snoc, okTrace_snoc,
    List.tail_drop, Nat.add_assoc, List.append_assoc]

/-- From its call, an operation reaches the state after its first n actions in n + 1 steps. -/
theorem stepsTo_afterActions (hready : s.Ready (.op o) rest) (hcheck : operandCheck o = none)
    (hread : ∀ f, .busRead f ∉ actionsOf s.params s.mirror o) (hn : n ≤ (actionsOf s.params s.mirror o).length)
    (hok : ∀ k a, k < n → (actionsOf s.params s.mirror o)[k]? = some a → ∃ r, s.answerAt k a = .ok r) :
    StepsTo (n + 1) s (State.afterActions { s with hostCalls := rest } o n) := by
  induction n with
  | zero =>
    refine .one ?_
    rw [step_start_op hready hcheck]
    simp [State.afterActions, drivenLines, okTrace]
  | succ n ih =>
    have ha := List.getElem?_eq_getElem hn
    obtain ⟨r, hx⟩ := hok n _ n.lt_succ_self ha
    refine (ih (Nat.le_of_succ_le hn) fun k a hk => hok k a (Nat.lt_succ_of_lt hk)).trans (.one ?_)
    exact step_afterActions_ok (s := { s with hostCalls := rest }) ha
      (fun f hf => hread f (hf ▸ List.mem_of_getElem? ha)) hx

/-- An operation whose actions are all answered Ok returns. -/
theorem stepsTo_return (hready : s.Ready (.op o) rest) (hcheck : operandCheck o = none)
    (hread : ∀ f, .busRead f ∉ actionsOf s.params s.mirror o) (hn : (actionsOf s.params s.mirror o).length = n)
    (hok : ∀ k a, (actionsOf s.params s.mirror o)[k]? = some a → ∃ r, s.answerAt k a = .ok r) :
    StepsTo (n + 2) s
      { s with
        hostCalls := rest
        lines := drivenLines (actionsOf s.params s.mirror o) s.lines
        answers := s.answers.drop n
        draws := s.draws + n
        trace := s.trace ++ okTrace s.lines (actionsOf s.params s.mirror o)
        results := s.results ++ [.ok (returnValue s.params s.mirror o)] } := by
  refine (stepsTo_afterActions hready hcheck hread hn.ge fun k a _ => hok k a).trans (.one ?_)
  rw [step_return (s := State.afterActions { s with hostCalls := rest } o n) rfl hn.le, ← hready.1]
  simp only [State.afterActions, List.take_of_length_le hn.le]

/-- An operation whose action n is the first answered Err ends there. -/
theorem stepsTo_err {a : Action} (hready : s.Ready (.op o) rest) (hcheck : operandCheck o = none)
    (hread : ∀ f, .busRead f ∉ actionsOf s.params s.mirror o) (ha : (actionsOf s.params s.mirror o)[n]? = some a)
    (hok : ∀ k a, k < n → (actionsOf s.params s.mirror o)[k]? = some a → ∃ r, s.answerAt k a = .ok r)
    (hx : s.answerAt n a = .err) :
    StepsTo (n + 2) s
      { s with
        hostCalls := rest
        lines := linesAfter a .err (drivenLines ((actionsOf s.params s.mirror o).take n) s.lines)
        answers := s.answers.drop (n + 1)
        draws := s.draws + (n + 1)
        trace := s.trace ++ (okTrace s.lines ((actionsOf s.params s.mirror o).take n) ++
          [⟨a, .err, reactions (drivenLines ((actionsOf s.params s.mirror o).take n) s.lines) a⟩])
        results := s.results ++ [.hardwareIO a n] } := by
  obtain ⟨hlt, -⟩ := List.getElem?_eq_some_iff.1 ha
  refine (stepsTo_afterActions hready hcheck hread hlt.le hok).trans (.one ?_)
  rw [step_action_err (s := State.afterActions { s with hostCalls := rest } o n) rfl ha
    (by rw [State.afterActions_nextAnswer]; exact hx), ← hready.1]
  simp only [State.afterActions, List.tail_drop, Nat.add_assoc, List.append_assoc]

/-- A call whose operand check fails returns General at once. -/
theorem stepsTo_refused {c : Check} (hready : s.Ready (.op o) rest) (hcheck : operandCheck o = some c) :
    StepsTo 1 s { s with hostCalls := rest, results := s.results ++ [.general c] } := by
  refine .one ?_
  rw [step_host_op hready, startOp_refused hcheck, State.finish, ← hready.1]

end

/-! ## clear and restore_clear -/

/-- Settles O25: each is one drive of CLR. -/
theorem clearOperations : Obligations.ClearOperations := by
  unfold Obligations.ClearOperations
  rintro s rest o v (⟨rfl, rfl⟩ | ⟨rfl, rfl⟩) hready
  · exact ⟨fun r hok => stepsTo_one_action_ok hready rfl rfl nofun hok, stepsTo_first_action_err hready rfl rfl⟩
  · exact ⟨fun r hok => stepsTo_one_action_ok hready rfl rfl nofun hok, stepsTo_first_action_err hready rfl rfl⟩

/-! ## reset -/

theorem actionsOf_reset (p : Params) (m : Mirror) :
    actionsOf p m .reset = [.lineDrive .reset .low, .lineDrive .reset .high] := rfl

/-- Settles O26: two drives of RESET, of which the second is a rising edge. -/
theorem resetPulsesLine : Obligations.ResetPulsesLine := by
  unfold Obligations.ResetPulsesLine
  intro s rest hready
  have hread : ∀ f, .busRead f ∉ actionsOf s.params s.mirror .reset := by simp [actionsOf_reset]
  refine ⟨fun herr => ?_, fun r r' h0 h1 => ?_, fun r h0 h1 => ?_⟩
  · exact stepsTo_first_action_err hready rfl rfl ((s.nextAnswer_eq_answerAt _).trans herr)
  · exact stepsTo_return hready rfl hread rfl fun k a ha => by
      match k with
      | 0 => cases ha; exact ⟨r, h0⟩
      | 1 => cases ha; exact ⟨r', h1⟩
      | k + 2 => cases ha
  · refine stepsTo_err (n := 1) hready rfl hread rfl (fun k a hk ha => ?_) h1
    obtain rfl := Nat.lt_one_iff.1 hk
    cases ha
    exact ⟨r, h0⟩

/-! ## init -/

theorem actionsOf_init (p : Params) (m : Mirror) :
    actionsOf p m .init = .lineDrive .reset .high :: .lineDrive .clr .high ::
      (ldacDrives p.ldacInitSeq).map fun v => .lineDrive .ldac v := rfl

theorem busRead_notMem_actionsOf_init (p : Params) (m : Mirror) (f : Frame) : .busRead f ∉ actionsOf p m .init := by
  simp [actionsOf_init]

/-- Drives of LDAC leave it at the last of them, and the other lines alone. -/
theorem drivenLines_ldac (vs : List Drive) (ls : Lines) :
    drivenLines (vs.map fun v => .lineDrive .ldac v) ls =
      { ls with ldac := (vs.getLast?.map driveLevel).getD ls.ldac } := by
  induction vs using List.reverseRecOn with
  | nil => rfl
  | append_singleton vs v ih =>
    rw [List.map_append, List.map_singleton, drivenLines_snoc, ih, List.getLast?_concat]
    rfl

/-- RESET and CLR first (D14), then the LDAC drives `vs`. -/
theorem drivenLines_init (vs : List Drive) (ls : Lines) :
    drivenLines (.lineDrive .reset .high :: .lineDrive .clr .high :: vs.map fun v => .lineDrive .ldac v) ls =
      ⟨.high, .high, (vs.getLast?.map driveLevel).getD ls.ldac⟩ :=
  drivenLines_ldac vs _

/-- Settles O27: the return after every drive, and the end at each failed one. -/
theorem initDrivesLines : Obligations.InitDrivesLines := by
  unfold Obligations.InitDrivesLines
  intro s rest hready
  have hread := busRead_notMem_actionsOf_init s.params s.mirror
  refine ⟨fun hok => ?_, fun h0 => ?_, fun r h0 h1 => ?_, fun j v hv hok hx => ?_⟩
  · have hrun := stepsTo_return hready rfl hread (n := (ldacDrives s.params.ldacInitSeq).length + 2)
      (by simp [actionsOf_init]) hok
    refine ⟨_, hrun, hready.1, rfl, rfl, ?_, ?_⟩
    · rw [List.map_append, okTrace_map_action, actionsOf_init, List.append_assoc]
      rfl
    · simp only [actionsOf_init, drivenLines_init, true_and]
      cases s.params.ldacInitSeq <;> rfl
  · exact ⟨_, stepsTo_err (n := 0) hready rfl hread rfl nofun h0, hready.1, rfl, rfl, rfl⟩
  · refine ⟨_, stepsTo_err (n := 1) hready rfl hread rfl (fun k a hk ha => ?_) h1, hready.1, rfl, rfl, rfl⟩
    obtain rfl := Nat.lt_one_iff.1 hk
    cases ha
    exact ⟨r, h0⟩
  · have ha : (actionsOf s.params s.mirror .init)[2 + j]? = some (.lineDrive .ldac v) := by
      simp [actionsOf_init, Nat.add_comm 2 j, hv]
    rw [show j + 4 = 2 + j + 2 by omega]
    refine ⟨_, stepsTo_err hready rfl hread ha hok hx, hready.1, rfl, ?_, rfl⟩
    simp only [actionsOf_init, Nat.add_comm 2 j, List.take_succ_cons, ← List.map_take, drivenLines_init]
    rfl

/-! ## Operations of one write frame (42_control_fsm.md section 3) -/

theorem writeAction_of_wf {m : Mode} {t : ChannelAddress} (hm : m ≠ .special) (ht : t.wf = true) (d : Word) :
    writeAction m t d = [.busWrite (Frame.ofFields m.bits (chcode t) d)] := by
  rw [writeAction, encodeWrite_of_wf hm ht]

theorem reactions_write {m : Mode} {t : ChannelAddress} (hm : m ≠ .special) (ht : t.wf = true) (d : Word) (ls : Lines) :
    reactions ls (.busWrite (Frame.ofFields m.bits (chcode t) d)) = [writeReaction m (addressed t) d] := by
  rw [← frameReaction_write hm ht]
  rfl

/-- An operation whose one action is a write frame, which returns nothing: both ends. -/
theorem stepsTo_one_write {s : State} {rest : List HostCall} {o : HostOp} {m : Mode} {t : ChannelAddress} {d : Word}
    (hready : s.Ready (.op o) rest) (hcheck : operandCheck o = none) (hm : m ≠ .special) (ht : t.wf = true)
    (hacts : actionsOf s.params s.mirror o = writeAction m t d) (hvalue : returnValue s.params s.mirror o = .unit)
    {f : Frame} (hf : Frame.ofFields m.bits (chcode t) d = f) :
    (∀ r, s.nextAnswer (.busWrite f) = .ok r →
      StepsTo 3 s
        { s with
          hostCalls := rest
          answers := s.answers.tail
          draws := s.draws + 1
          trace := s.trace ++ [⟨.busWrite f, .ok, [writeReaction m (addressed t) d]⟩]
          results := s.results ++ [.ok .unit] }) ∧
    (s.nextAnswer (.busWrite f) = .err →
      StepsTo 2 s
        { s with
          hostCalls := rest
          answers := s.answers.tail
          draws := s.draws + 1
          trace := s.trace ++ [⟨.busWrite f, .err, [writeReaction m (addressed t) d]⟩]
          results := s.results ++ [.hardwareIO (.busWrite f) 0] }) := by
  rw [writeAction_of_wf hm ht, hf] at hacts
  have hreact := reactions_write hm ht d s.lines
  rw [hf] at hreact
  refine ⟨fun r hx => ?_, fun hx => ?_⟩
  · have hrun := stepsTo_one_action_ok hready hcheck hacts nofun hx
    rwa [hreact, hvalue] at hrun
  · have hrun := stepsTo_first_action_err hready hcheck (by rw [hacts]; rfl) hx
    rwa [hreact] at hrun

theorem operandCheck_setCode (code : Word) (t : ChannelAddress) :
    operandCheck (.setCode code t) = if t.wf then none else some .addressOutOfRange := rfl

/-- Settles O28: the check of the target, then one Data frame. -/
theorem setCodeSendsOneDataFrame : Obligations.SetCodeSendsOneDataFrame := by
  unfold Obligations.SetCodeSendsOneDataFrame
  intro s rest code t hready
  refine ⟨fun ht => stepsTo_refused hready (by simp [operandCheck_setCode, ht]), fun ht => ?_⟩
  have hcheck : operandCheck (.setCode code t) = none := by simp [operandCheck_setCode, ht]
  exact ⟨_, Frame.mode_ofFields .., Frame.addr_ofFields .., Frame.data_ofFields ..,
    stepsTo_one_write (m := .data) hready hcheck nofun ht rfl rfl rfl⟩

theorem operandCheck_setVoltage (v : Binary64) (t : ChannelAddress) :
    operandCheck (.setVoltage v t) =
      if t.wf then if finiteVoltage v = none then some .nonFiniteVoltage else none else some .addressOutOfRange := by
  cases hv : finiteVoltage v <;> simp [operandCheck, hv]

/-- Settles O29: the two checks in their order, then one Data frame with the converter's code. -/
theorem setVoltageConvertsAndSends : Obligations.SetVoltageConvertsAndSends := by
  unfold Obligations.SetVoltageConvertsAndSends
  intro s rest v t hready
  refine ⟨fun ht => ?_, fun ht hv => ?_, fun q ht hv => ?_⟩
  · exact stepsTo_refused hready (by simp [operandCheck_setVoltage, ht])
  · exact stepsTo_refused hready (by simp [operandCheck_setVoltage, ht, hv])
  · obtain ⟨⟨g, c⟩, hrep, -⟩ := rep_mem_addressed ht
    have hacts : actionsOf s.params s.mirror (.setVoltage v t) =
        writeAction .data t (voltageToCode s.params s.mirror q g c) := by simp [actionsOf, voltageAction, hrep, hv]
    refine ⟨g, c, _, _, hrep, Frame.mode_ofFields .., Frame.addr_ofFields .., Frame.data_ofFields .., rfl, ?_,
      stepsTo_one_write (m := .data) hready (by simp [operandCheck_setVoltage, ht, hv]) nofun ht hacts rfl rfl⟩
    intro hexact
    rw [voltageToCode, hexact]
    rfl

/-- Settles O30: the target of both is every channel. -/
theorem setGainAndOffsetBroadcast : Obligations.SetGainAndOffsetBroadcast := by
  unfold Obligations.SetGainAndOffsetBroadcast
  rintro s rest o value f re (⟨rfl, rfl, rfl⟩ | ⟨rfl, rfl, rfl⟩) hready
  · exact stepsTo_one_write (m := .gain) (t := .allCh) hready rfl nofun rfl rfl rfl (ofFields_eq_ofNat rfl)
  · exact stepsTo_one_write (m := .offset) (t := .allCh) hready rfl nofun rfl rfl rfl (ofFields_eq_ofNat rfl)

/-- Settles O32: get_reg has no action, and what it returns is the mirror. -/
theorem getRegReturnsMirror : Obligations.GetRegReturnsMirror := by
  unfold Obligations.GetRegReturnsMirror
  exact fun s rest hready => stepsTo_no_action hready rfl rfl

end Sys2Proof.Machine
end

section
/-! The read-back scan (42_control_fsm.md section 4): where each request stands in the list, where each response is
filed, and the state along a read_all. -/

namespace Sys2Proof.Machine

/-! ## The list of requests (42_control_fsm.md R193) -/

/-- The four requests of a channel, group-major and channel-minor (D18). -/
theorem readList_channel (g : GroupNo) (c : ChanNo) :
    readList[4 * (8 * g.val + c.val)]? = some (.x1a g c) ∧
    readList[4 * (8 * g.val + c.val) + 1]? = some (.x1b g c) ∧
    readList[4 * (8 * g.val + c.val) + 2]? = some (.c g c) ∧
    readList[4 * (8 * g.val + c.val) + 3]? = some (.m g c) := by
  revert g c
  decide +kernel

theorem readList_ofs0 : readList[160]? = some .ofs0 := by decide +kernel

theorem readList_ofs1 : readList[161]? = some .ofs1 := by decide +kernel

/-- The last request repeats OFS1. -/
theorem readList_last : readList[162]? = some .ofs1 := by decide +kernel

/-- Settles O33: the channels' requests, then the three of the span offsets. -/
theorem scanRequestList : Obligations.ScanRequestList := by
  unfold Obligations.ScanRequestList
  exact ⟨readList_length, readList_channel, readList_ofs0, readList_ofs1, readList_last⟩

/-- The place of a register's first request; control and select have none. -/
def scanIndex : ReadBackAddr → Nat
  | .x1a g c => 4 * (8 * g.val + c.val)
  | .x1b g c => 4 * (8 * g.val + c.val) + 1
  | .c g c => 4 * (8 * g.val + c.val) + 2
  | .m g c => 4 * (8 * g.val + c.val) + 3
  | .ofs0 => 160
  | .ofs1 => 161
  | .control => 163
  | .select _ => 163

theorem map_scanIndex_readList : (readList.take 162).map scanIndex = List.range 162 := by decide +kernel

/-- Before the repetition, a request stands at its register's place. -/
theorem scanIndex_of_readList {k : Nat} {r : ReadBackAddr} (hk : k < 162) (h : readList[k]? = some r) :
    scanIndex r = k := by
  have hmap := congrArg (·[k]?) map_scanIndex_readList
  simpa [List.getElem?_map, List.getElem?_take, List.getElem?_range, hk, h] using hmap

/-- A register other than OFS1 has one request. -/
theorem readList_eq_some_iff {r : ReadBackAddr} (hr : readList[scanIndex r]? = some r) (hne : r ≠ .ofs1) (k : Nat) :
    readList[k]? = some r ↔ k = scanIndex r := by
  refine ⟨fun h => ?_, fun h => h ▸ hr⟩
  obtain hk | rfl | hk := Nat.lt_trichotomy k 162
  · exact (scanIndex_of_readList hk h).symm
  · exact absurd (Option.some.inj (readList_last.symm.trans h)).symm hne
  · rw [List.getElem?_eq_none (by rw [readList_length]; omega)] at h
    cases h

/-- Before the repetition, OFS1 too has one request. -/
theorem readList_eq_ofs1_iff {k : Nat} (hk : k < 162) : readList[k]? = some .ofs1 ↔ k = 161 :=
  ⟨fun h => (scanIndex_of_readList hk h).symm, fun h => h ▸ readList_ofs1⟩

/-! ## The filing of the responses (42_control_fsm.md R194) -/

/-- By how many requests a response is late. -/
def responseLag : ReadbackShift → Nat
  | .zero => 0
  | .one => 1

/-- A response is filed under the request that stands `responseLag` before it. -/
theorem responseTarget_eq_some_iff (sh : ReadbackShift) (k : Nat) (r : ReadBackAddr) :
    responseTarget sh k = some r ↔ ∃ j, k = j + responseLag sh ∧ readList[j]? = some r := by
  cases sh with
  | zero => simp [responseTarget, responseLag]
  | one => cases k <;> simp [responseTarget, responseLag]

section
variable {α : Type} {get : Mirror → α} {value : Word → α} {r : ReadBackAddr} {sh : ReadbackShift} {rs : Nat → Response}
  {m : Mirror} {n q : Nat}

/-- An entry that only the register `r` is stored in moves with the responses to r. -/
theorem get_fileResponse
    (hget : ∀ (r' : ReadBackAddr) v m, get (storeResponse r' v m) = if r' = r then value v else get m) (v : Word) :
    get (fileResponse sh n v m) = if responseTarget sh n = some r then value v else get m := by
  unfold fileResponse
  cases h : responseTarget sh n with
  | none => simp
  | some r' => simp [hget]

/-- The entry of a register with one response among the first n, number q. -/
theorem get_scanMirror
    (hget : ∀ (r' : ReadBackAddr) v m, get (storeResponse r' v m) = if r' = r then value v else get m)
    (hq : ∀ k < n, responseTarget sh k = some r ↔ k = q) :
    get (scanMirror sh rs m n) = if q < n then value (resp16 (rs q)) else get m := by
  induction n with
  | zero => rfl
  | succ n ih =>
    rw [scanMirror, get_fileResponse hget, ih fun k hk => hq k (Nat.lt_succ_of_lt hk)]
    have hn := hq n n.lt_succ_self
    by_cases h : n = q
    · subst h
      simp [hn.2 rfl]
    · rw [if_neg (mt hn.1 h)]
      simp only [Nat.lt_succ_iff_lt_or_eq, Ne.symm h, or_false]

/-- The entry of a register other than OFS1. -/
theorem get_scanMirror_of_ne_ofs1
    (hget : ∀ (r' : ReadBackAddr) v m, get (storeResponse r' v m) = if r' = r then value v else get m)
    (hr : readList[scanIndex r]? = some r) (hne : r ≠ .ofs1) :
    get (scanMirror sh rs m n) =
      if scanIndex r + responseLag sh < n then value (resp16 (rs (scanIndex r + responseLag sh))) else get m := by
  refine get_scanMirror hget fun k _ => ?_
  simp [responseTarget_eq_some_iff, readList_eq_some_iff hr hne]

end

/-- The entry of OFS1, which the last two requests ask for: under READBACK_SHIFT = 1 the second is never filed. -/
theorem scanMirror_ofs1 (sh : ReadbackShift) (rs : Nat → Response) (m : Mirror) {n : Nat} (hn : n ≤ 163) :
    (scanMirror sh rs m n).ofs1 =
      if 162 < n then resp16 (rs 162)
      else if 161 + responseLag sh < n then resp16 (rs (161 + responseLag sh)) else m.ofs1 := by
  have before : ∀ n, n ≤ 162 + responseLag sh → (scanMirror sh rs m n).ofs1 =
      if 161 + responseLag sh < n then resp16 (rs (161 + responseLag sh)) else m.ofs1 := by
    refine fun n hn => get_scanMirror (get := (·.ofs1)) (value := id) storeResponse_ofs1 fun k hk => ?_
    rw [responseTarget_eq_some_iff]
    refine ⟨fun ⟨j, hkj, hj⟩ => ?_, fun h => ⟨161, h, readList_ofs1⟩⟩
    rw [readList_eq_ofs1_iff (by omega)] at hj
    rw [hkj, hj]
  obtain hlt | rfl := Nat.lt_or_eq_of_le hn
  · rw [if_neg (by omega), before n (by omega)]
  · cases sh with
    | one => simpa [responseLag] using before 163 le_rfl
    | zero =>
      rw [scanMirror, get_fileResponse (get := (·.ofs1)) (value := id) storeResponse_ofs1,
        if_pos (show responseTarget .zero 162 = some .ofs1 from readList_last)]
      rfl

theorem scanMirror_control (sh : ReadbackShift) (rs : Nat → Response) (m : Mirror) (n : Nat) :
    (scanMirror sh rs m n).control = m.control := by
  induction n with
  | zero => rfl
  | succ n ih => rw [scanMirror, fileResponse_control, ih]

theorem scanMirror_select (sh : ReadbackShift) (rs : Nat → Response) (m : Mirror) (n : Nat) :
    (scanMirror sh rs m n).select = m.select := by
  induction n with
  | zero => rfl
  | succ n ih => rw [scanMirror, fileResponse_select, ih]

/-- Settles O34: entry by entry, the channels' and OFS0's with one response each, OFS1's with two. -/
theorem scanFilesEachResponse : Obligations.ScanFilesEachResponse := by
  unfold Obligations.ScanFilesEachResponse
  intro sh rs m n δ hn hδ
  obtain rfl : δ = responseLag sh := by obtain ⟨rfl, rfl⟩ | ⟨rfl, rfl⟩ := hδ <;> rfl
  refine ⟨fun g c => ?_, ?_, scanMirror_ofs1 sh rs m hn, scanMirror_control sh rs m n, scanMirror_select sh rs m n⟩
  · obtain ⟨hx1a, hx1b, hc, hm⟩ := readList_channel g c
    exact ⟨
      get_scanMirror_of_ne_ofs1 (get := (·.x1a[chIdx g c])) (storeResponse_x1a · · · g c) (r := .x1a g c) hx1a nofun,
      get_scanMirror_of_ne_ofs1 (get := (·.x1b[chIdx g c])) (storeResponse_x1b · · · g c) (r := .x1b g c) hx1b nofun,
      get_scanMirror_of_ne_ofs1 (get := (·.c[chIdx g c])) (storeResponse_c · · · g c) (r := .c g c) hc nofun,
      get_scanMirror_of_ne_ofs1 (get := (·.m[chIdx g c])) (storeResponse_m · · · g c) (r := .m g c) hm nofun⟩
  · exact get_scanMirror_of_ne_ofs1 (get := (·.ofs0)) (value := id) storeResponse_ofs0 readList_ofs0 nofun

/-! ## The state along a read_all -/

theorem actionsOf_readAll_getElem? (p : Params) (m : Mirror) {k : Nat} (hk : k < 163) :
    (actionsOf p m .readAll)[k]? = some (readAction k) := by
  have hlist : readList[k]? = some (readList[k]'(readList_length ▸ hk)) := List.getElem?_eq_getElem _
  simp [actionsOf, readAction, hlist]

theorem length_actionsOf_readAll (p : Params) (m : Mirror) : (actionsOf p m .readAll).length = 163 := by
  simp [actionsOf, readList_length]

theorem reactions_readAction (ls : Lines) (k : Nat) :
    reactions ls (readAction k) = [.stageReadBack ((readList[k]?).getD .ofs1), .nothingStated] := by
  rw [readAction, reactions_busRead, frameReaction_encodeReadRequest]

theorem scanTrace_succ (rs : Nat → Response) (n : Nat) :
    scanTrace rs (n + 1) = scanTrace rs n ++
      [⟨readAction n, .bytes (rs n), [.stageReadBack ((readList[n]?).getD .ofs1), .nothingStated]⟩] := by
  simp [scanTrace, List.range_succ]

/-- `s` after the first n requests of read_all, answered by `rs`. -/
def State.afterReads (s : State) (rs : Nat → Response) (n : Nat) : State :=
  { s with
    phase := .op .readAll n
    mirror := scanMirror s.params.readbackShift rs s.mirror n
    answers := s.answers.drop n
    draws := s.draws + n
    trace := s.trace ++ scanTrace rs n }

section
variable {s : State} {rest : List HostCall} {rs : Nat → Response} {n : Nat}

theorem State.afterReads_nextAnswer (s : State) (rs : Nat → Response) (n : Nat) (a : Action) :
    (s.afterReads rs n).nextAnswer a = s.answerAt n a := by
  rw [State.nextAnswer_eq_answerAt, State.answerAt_drop (s := s) (n := n) rfl rfl, Nat.add_zero]

/-- One response more. -/
theorem step_afterReads_ok (hn : n < 163) (hx : s.answerAt n (readAction n) = .ok (rs n)) :
    step (s.afterReads rs n) = .next (s.afterReads rs (n + 1)) := by
  rw [step_action_ok (s := s.afterReads rs n) rfl (actionsOf_readAll_getElem? _ _ hn)
    (by rw [s.afterReads_nextAnswer, hx]), reactions_readAction]
  simp only [State.afterReads, List.tail_drop, Nat.add_assoc, scanTrace_succ, List.append_assoc]
  rfl

/-- From its call, read_all reaches the state after its first n requests in n + 1 steps. -/
theorem stepsTo_afterReads (hready : s.Ready (.op .readAll) rest) (hn : n ≤ 163)
    (hok : ∀ k < n, s.answerAt k (readAction k) = .ok (rs k)) :
    StepsTo (n + 1) s (State.afterReads { s with hostCalls := rest } rs n) := by
  induction n with
  | zero =>
    refine .one ?_
    rw [step_start_op hready rfl]
    simp [State.afterReads, scanMirror, scanTrace]
  | succ n ih =>
    refine (ih (Nat.le_of_succ_le hn) fun k hk => hok k (Nat.lt_succ_of_lt hk)).trans (.one ?_)
    exact step_afterReads_ok (s := { s with hostCalls := rest }) hn (hok n n.lt_succ_self)

end

/-- Settles O35: the 163 requests, then the return. -/
theorem readAllRefreshesMirror : Obligations.ReadAllRefreshesMirror := by
  unfold Obligations.ReadAllRefreshesMirror
  intro s rest rs hready hok
  refine (stepsTo_afterReads hready le_rfl hok).trans (.one ?_)
  rw [step_return (s := State.afterReads { s with hostCalls := rest } rs 163) rfl (length_actionsOf_readAll _ _).le,
    ← hready.1]
  rfl

/-- The end at request k. -/
theorem stepsTo_failed_read {s : State} {rest : List HostCall} {rs : Nat → Response} {k : Nat}
    (hready : s.Ready (.op .readAll) rest) (hk : k < 163)
    (hok : ∀ j < k, s.answerAt j (readAction j) = .ok (rs j)) (hx : s.answerAt k (readAction k) = .err) :
    StepsTo (k + 2) s
      { s with
        hostCalls := rest
        answers := s.answers.drop (k + 1)
        draws := s.draws + (k + 1)
        mirror := scanMirror s.params.readbackShift rs s.mirror k
        trace := s.trace ++ scanTrace rs k ++
          [⟨readAction k, .err, [.stageReadBack ((readList[k]?).getD .ofs1), .nothingStated]⟩]
        results := s.results ++ [.hardwareIO (readAction k) k] } := by
  refine (stepsTo_afterReads hready hk.le hok).trans (.one ?_)
  rw [step_action_err (s := State.afterReads { s with hostCalls := rest } rs k) rfl (actionsOf_readAll_getElem? _ _ hk)
    (by rw [State.afterReads_nextAnswer]; exact hx), reactions_readAction, ← hready.1]
  simp only [State.afterReads, List.tail_drop, Nat.add_assoc]
  rfl

/-- Settles O36: the failure's state, and the two corner cases from where the responses are filed. -/
theorem readAllFailureKeepsPartialMirror : Obligations.ReadAllFailureKeepsPartialMirror := by
  unfold Obligations.ReadAllFailureKeepsPartialMirror
  refine ⟨fun s rest rs k hready hk hok hx => stepsTo_failed_read hready hk hok hx, fun _ _ _ => rfl, fun rs m => ?_⟩
  obtain ⟨hchannels, hofs0, hofs1, -, -⟩ := scanFilesEachResponse .one rs m 162 1 (by omega) (.inr ⟨rfl, rfl⟩)
  refine ⟨hofs1, hofs0, fun g c => ?_⟩
  obtain ⟨hx1a, hx1b, hc, hm⟩ := hchannels g c
  refine ⟨hx1a.trans (if_pos ?_), hx1b.trans (if_pos ?_), hc.trans (if_pos ?_), hm.trans (if_pos ?_)⟩ <;> omega

end Sys2Proof.Machine
end

section
/-! The converter's arithmetic (41_transfer_function.md sections 1 and 3): rounding to nearest and its laws, the wrap, X
as a function of the voltage, and how far binary64 strays. -/

namespace Sys2Proof.Machine

/-! ## Rounding (41_transfer_function.md R164) -/

theorem floor_le_self (x : Rat) : (x.floor : Rat) ≤ x := Int.floor_le x

theorem self_lt_floor_add_one (x : Rat) : x < (x.floor : Rat) + 1 := Int.lt_floor_add_one x

/-- Away from ties the nearer neighbour; at a tie, the one that ROUND_TIES chooses. -/
theorem roundRat_cases (ties : RoundTies) (x : Rat) :
    (x < (x.floor : Rat) + 1 / 2 ∧ roundRat ties x = x.floor) ∨
    ((x.floor : Rat) + 1 / 2 < x ∧ roundRat ties x = x.floor + 1) ∨
    (x = (x.floor : Rat) + 1 / 2 ∧
      roundRat ties x =
        match ties with
        | .away => if 0 ≤ x then x.floor + 1 else x.floor
        | .even => if x.floor % 2 = 0 then x.floor else x.floor + 1) := by
  unfold roundRat
  obtain h | h | h := lt_trichotomy (x - (x.floor : Rat)) (1 / 2)
  · exact .inl ⟨by linarith, if_pos h⟩
  · refine .inr (.inr ⟨by linarith, ?_⟩)
    refine (if_neg h.not_lt).trans ((if_neg h.not_gt).trans ?_)
    cases ties <;> rfl
  · exact .inr (.inl ⟨by linarith, by rw [if_neg h.not_gt, if_pos h]⟩)

/-- The value is one of the two neighbours. -/
theorem roundRat_eq_floor_or (ties : RoundTies) (x : Rat) :
    roundRat ties x = x.floor ∨ roundRat ties x = x.floor + 1 := by
  obtain ⟨-, h⟩ | ⟨-, h⟩ | ⟨-, h⟩ := roundRat_cases ties x
  · exact .inl h
  · exact .inr h
  · rw [h]
    cases ties
    · exact (ite_eq_or_eq _ _ _).symm
    · exact ite_eq_or_eq _ _ _

theorem abs_sub_roundRat_le (ties : RoundTies) (x : Rat) : |x - (roundRat ties x : Rat)| ≤ 1 / 2 := by
  have hlo := floor_le_self x
  have hhi := self_lt_floor_add_one x
  rw [abs_le]
  obtain ⟨h, hr⟩ | ⟨h, hr⟩ | ⟨h, -⟩ := roundRat_cases ties x
  · rw [hr]
    constructor <;> linarith
  · rw [hr]
    push_cast
    constructor <;> linarith
  · obtain hr | hr := roundRat_eq_floor_or ties x
    · rw [hr]
      constructor <;> linarith
    · rw [hr]
      push_cast
      constructor <;> linarith

/-- An integer nearer than one half is the value, whatever ROUND_TIES. -/
theorem roundRat_eq_of_abs_sub_lt (ties : RoundTies) {x : Rat} {n : Int} (h : |x - (n : Rat)| < 1 / 2) :
    roundRat ties x = n := by
  obtain ⟨hlo, hhi⟩ := abs_lt.1 h
  obtain ⟨hlo', hhi'⟩ := abs_le.1 (abs_sub_roundRat_le ties x)
  have below : ((roundRat ties x : Int) : Rat) < ((n + 1 : Int) : Rat) := by push_cast; linarith
  have above : ((n : Int) : Rat) < ((roundRat ties x + 1 : Int) : Rat) := by push_cast; linarith
  rw [Int.cast_lt] at below above
  omega

@[simp] theorem roundRat_intCast (ties : RoundTies) (n : Int) : roundRat ties (n : Rat) = n :=
  roundRat_eq_of_abs_sub_lt ties (by norm_num)

theorem floor_tie (k : Int) : ((k : Rat) + 1 / 2).floor = k := by
  change ⌊(k : Rat) + 1 / 2⌋ = k
  rw [Int.floor_eq_iff]
  constructor <;> linarith

/-- The value at a tie. -/
theorem roundRat_tie (ties : RoundTies) (k : Int) :
    roundRat ties ((k : Rat) + 1 / 2) =
      match ties with
      | .away => if 0 ≤ k then k + 1 else k
      | .even => if k % 2 = 0 then k else k + 1 := by
  have hsign : (0 : Rat) ≤ (k : Rat) + 1 / 2 ↔ 0 ≤ k := by
    constructor
    · intro h
      have : ((-1 : Int) : Rat) < (k : Rat) := by push_cast; linarith
      rw [Int.cast_lt] at this
      omega
    · intro h
      have : (0 : Rat) ≤ (k : Rat) := Int.cast_nonneg h
      linarith
  have hround := roundRat_cases ties ((k : Rat) + 1 / 2)
  rw [floor_tie] at hround
  obtain ⟨h, -⟩ | ⟨h, -⟩ | ⟨-, h⟩ := hround
  · exact absurd h (lt_irrefl _)
  · exact absurd h (lt_irrefl _)
  · rw [h]
    cases ties <;> simp only [hsign]

/-! ## The wrap (41_transfer_function.md R165) -/

theorem toNat_wrapCode (n : Int) : ((wrapCode n).toNat : Int) = n % 65536 := by
  rw [wrapCode, BitVec.toNat_ofInt]
  omega

theorem wrapCode_add_65536 (n : Int) : wrapCode (n + 65536) = wrapCode n := by
  refine BitVec.eq_of_toNat_eq (Int.ofNat_inj.1 ?_)
  rw [toNat_wrapCode, toNat_wrapCode, Int.add_emod_right]

/-- Settles O40: the distance to the value, the value at each tie, and the remainder. -/
theorem roundAndWrap : Obligations.RoundAndWrap := by
  unfold Obligations.RoundAndWrap
  exact ⟨abs_sub_roundRat_le, fun k => ⟨roundRat_tie .away k, roundRat_tie .even k⟩, toNat_wrapCode⟩

/-! ## Monotony (41_transfer_function.md section 3, laws 3 and 4) -/

theorem roundRat_mono (ties : RoundTies) : Monotone (roundRat ties) := by
  intro x y hxy
  have hfloor : x.floor ≤ y.floor := Int.floor_le_floor hxy
  have hx := roundRat_eq_floor_or ties x
  have hy := roundRat_eq_floor_or ties y
  obtain hlt | heq := hfloor.lt_or_eq
  · omega
  -- Between the same neighbours, x goes up only past the tie, and at the tie y does no worse.
  obtain ⟨-, h⟩ | ⟨h, -⟩ | ⟨h, -⟩ := roundRat_cases ties x
  · omega
  · obtain ⟨h', -⟩ | ⟨-, h'⟩ | ⟨h', -⟩ := roundRat_cases ties y
    · rw [← heq] at h'
      linarith
    · omega
    · rw [← heq] at h'
      linarith
  · obtain ⟨h', -⟩ | ⟨-, h'⟩ | ⟨h', -⟩ := roundRat_cases ties y
    · rw [← heq] at h'
      linarith
    · omega
    · rw [show x = y by rw [h, h', heq]]

theorem unrounded_strictMono {vref : Rat} (hvref : 0 < vref) (ofs c m : Nat) :
    StrictMono fun v => unrounded v vref ofs c m := by
  intro v v' hv
  have hscale : (0 : Rat) < 65536 / ((m : Rat) + 1) := by positivity
  unfold unrounded
  refine mul_lt_mul_of_pos_right ?_ hscale
  gcongr

/-- Settles O41. -/
theorem unwrappedValueMonotone : Obligations.UnwrappedValueMonotone := by
  unfold Obligations.UnwrappedValueMonotone
  exact ⟨fun v v' vr ofs c m hv => unrounded_strictMono (voltsValue_pos vr) ofs c m hv,
    fun ties x y hxy => roundRat_mono ties hxy⟩

/-! ## The period (41_transfer_function.md section 3, law 5) -/

/-- One period more adds 65536 to X. -/
theorem unrounded_add_period (v : Rat) {vref : Rat} (hvref : 0 < vref) (ofs c m : Nat) :
    unrounded (v + 4 * vref * ((m : Rat) + 1) / 65536) vref ofs c m = unrounded v vref ofs c m + 65536 := by
  have hm : (m : Rat) + 1 ≠ 0 := by positivity
  unfold unrounded
  field_simp
  ring

/-- Rounding commutes with adding 65536, unless a tie changes its sign. -/
theorem roundRat_add_65536 {ties : RoundTies} {x : Rat}
    (h : ties = .even ∨ ∀ k : Int, -65536 ≤ k → k < 0 → x ≠ (k : Rat) + 1 / 2) :
    roundRat ties (x + 65536) = roundRat ties x + 65536 := by
  by_cases htie : ∃ k : Int, x = (k : Rat) + 1 / 2
  · obtain ⟨k, rfl⟩ := htie
    have hshift : (k : Rat) + 1 / 2 + 65536 = ((k + 65536 : Int) : Rat) + 1 / 2 := by push_cast; ring
    rw [hshift, roundRat_tie, roundRat_tie]
    cases ties with
    | even =>
      dsimp only
      split_ifs <;> omega
    | away =>
      have hk : ¬ (-65536 ≤ k ∧ k < 0) := fun ⟨hlo, hhi⟩ => h.resolve_left nofun k hlo hhi rfl
      dsimp only
      split_ifs <;> omega
  · have hnear : |x - (roundRat ties x : Rat)| < 1 / 2 := by
      refine lt_of_le_of_ne (abs_sub_roundRat_le ties x) fun heq => htie ?_
      obtain h' | h' := eq_or_eq_neg_of_abs_eq heq
      · exact ⟨roundRat ties x, by linarith⟩
      · exact ⟨roundRat ties x - 1, by push_cast; linarith⟩
    refine roundRat_eq_of_abs_sub_lt ties ?_
    push_cast
    rwa [add_sub_add_right_eq_sub]

/-- Settles O42: X grows by 65536, the rounded value with it, and the wrap takes it off again. -/
theorem converterPeriod : Obligations.ConverterPeriod := by
  unfold Obligations.ConverterPeriod
  intro p mi v g c hexact hties
  simp only [voltageToCode, hexact, convertedX_exact]
  rw [unrounded_add_period v (voltsValue_pos p.vref), roundRat_add_65536 hties, wrapCode_add_65536]

/-! ## Zero volts, and the finite voltages (41_transfer_function.md R168, R171) -/

theorem spanOffset_creation (g : GroupNo) : spanOffset Mirror.creation g = 0x1555#16 := by
  unfold spanOffset
  split <;> rfl

/-- At zero volts X does not depend on VREF. -/
theorem unrounded_zero (vref : Rat) (ofs c m : Nat) :
    unrounded 0 vref ofs c m = (4 * (ofs : Rat) + 32768 - (c : Rat)) * (65536 / ((m : Rat) + 1)) := by
  simp [unrounded]

theorem voltageToCode_creation_zero {p : Params} (hexact : p.vtcArith = .exact) (g : GroupNo) (c : ChanNo) :
    voltageToCode p Mirror.creation 0 g c = 0xD550#16 := by
  obtain ⟨-, -, hc, hm⟩ := Mirror.creation_channel (chIdx g c)
  have hX : unrounded 0 (voltsValue p.vref) (0x1555#16).toNat (0x2000#14).toNat (0x3FFF#14).toNat =
      ((185680 : Int) : Rat) := by
    rw [unrounded_zero]
    norm_num
  rw [voltageToCode, hexact, convertedX_exact, spanOffset_creation, hc, hm, hX, roundRat_intCast]
  rfl

/-- NaN and the infinities have the exponent field 2047. -/
theorem finiteVoltage_eq_none_iff (b : Binary64) : finiteVoltage b = none ↔ b.extractLsb' 52 11 = 0x7FF#11 := by
  have hfield : (b.extractLsb' 52 11).toNat = 2047 ↔ b.extractLsb' 52 11 = 0x7FF#11 := BitVec.toNat_inj (y := 0x7FF#11)
  rw [← hfield]
  unfold finiteVoltage
  dsimp only
  by_cases h : (b.extractLsb' 52 11).toNat = 2047
  · rw [if_pos h]
    exact iff_of_true rfl h
  · rw [if_neg h]
    exact iff_of_false (Option.some_ne_none _) h

/-- Settles O43: X at zero volts is 185680; finiteness by the exponent field; two voltages evaluated. -/
theorem zeroVoltsAndFiniteness : Obligations.ZeroVoltsAndFiniteness := by
  unfold Obligations.ZeroVoltsAndFiniteness
  exact ⟨fun p g c hexact => voltageToCode_creation_zero hexact g c, finiteVoltage_eq_none_iff, by decide +kernel,
    by decide +kernel⟩

/-! ## binary64 (41_transfer_function.md R170) -/

theorem abs_convertedX_sub_unrounded_le (v : Rat) {vref : Rat} (hvref : 0 < vref) (ofs c m : Nat) :
    |convertedX .binary64 v vref ofs c m - unrounded v vref ofs c m| ≤ binary64Error v vref ofs c m := by
  rw [convertedX_binary64, add_sub_cancel_left]
  exact abs_confine_le (binary64Error_nonneg v hvref ofs c m) _

/-- Two values round alike when no tie lies as near to the one as the other does. -/
theorem roundRat_eq_of_no_tie (ties : RoundTies) {x y e : Rat} (hy : |y - x| ≤ e)
    (hno : ∀ k : Int, e < |x - ((k : Rat) + 1 / 2)|) : roundRat ties y = roundRat ties x := by
  obtain ⟨hlo, hhi⟩ := abs_le.1 (abs_sub_roundRat_le ties x)
  obtain ⟨hylo, hyhi⟩ := abs_le.1 hy
  -- The ties on either side of the rounded value of x are farther than y.
  have habove := hno (roundRat ties x)
  have hbelow := hno (roundRat ties x - 1)
  rw [abs_of_nonpos (by linarith)] at habove
  rw [abs_of_nonneg (by push_cast; linarith)] at hbelow
  push_cast at hbelow
  exact roundRat_eq_of_abs_sub_lt ties (abs_lt.2 ⟨by linarith, by linarith⟩)

/-- Settles O56: the deviation is confined to the error, and cannot cross a tie that is farther. -/
theorem binary64AgreesWithinError : Obligations.Binary64AgreesWithinError := by
  unfold Obligations.Binary64AgreesWithinError
  refine ⟨fun v vr ofs c m => ?_, fun p mi v g c hbinary hno => ?_⟩
  · refine (abs_convertedX_sub_unrounded_le v (voltsValue_pos vr) ofs c m).trans_eq ?_
    rw [binary64Error, unroundedSize, unitRoundoff]
    ring
  · rw [voltageToCode, voltageToCode, hbinary, convertedX_exact]
    exact congrArg wrapCode
      (roundRat_eq_of_no_tie p.roundTies (abs_convertedX_sub_unrounded_le v (voltsValue_pos p.vref) _ _ _) hno)

end Sys2Proof.Machine
end
